-- ==== Sys2Proof/Word.lean ====
section
/-! DEFINITION. The words of the machine (00_scope.md R6, R8): every value is an unsigned bit vector of a stated width. -/

namespace Sys2Proof

/-- The smallest addressable unit of memory (20_memory.md R130). -/
abbrev Byte := BitVec 8

/-- A selector, a table limit, a 16-bit half of a register (10_state.md R42, R48). -/
abbrev Word16 := BitVec 16

/-- `XLEN`, `LINEAR_BITS` and `PHYS_BITS` (00_scope.md R6). -/
abbrev Word32 := BitVec 32

/-- A model-specific register (10_state.md R114). -/
abbrev Word64 := BitVec 64

/-- A default or effective operand size or address size (30_encoding.md R192). -/
inductive OpSize
  | s16
  | s32
  deriving DecidableEq, Repr

/-- The other size: what a 66 or 67 byte selects (30_encoding.md R192). -/
def OpSize.other : OpSize → OpSize
  | .s16 => .s32
  | .s32 => .s16

end Sys2Proof
end

