-- ==== Sys2Proof/Syntax.lean ====
section
/-! DEFINITION. The 28 instructions of spec/opcode_table.json with their operands (30_encoding.md R191, R195 to R208). -/

namespace Sys2Proof

/-- The eight general registers (10_state.md R20). -/
inductive Gpr
  | eax | ecx | edx | ebx | esp | ebp | esi | edi
  deriving DecidableEq, Repr

/-- The six segment registers (10_state.md R42). -/
inductive SegReg
  | es | cs | ss | ds | fs | gs
  deriving DecidableEq, Repr

/-- A byte before the opcode (30_encoding.md R191). -/
inductive Prefix
  /-- 66: the other operand size. -/
  | opSize
  /-- 67: the other address size. -/
  | addrSize
  | seg (r : SegReg)
  /-- F0. -/
  | lock
  /-- F2. -/
  | repne
  /-- F3. -/
  | rep
  deriving DecidableEq, Repr

/-- The register part of a 16-bit effective address (30_encoding.md R202), in the order of r/m. -/
inductive Base16
  | bxsi | bxdi | bpsi | bpdi | si | di | bp | bx
  deriving DecidableEq, Repr

/-- The displacement after a 16-bit address form. -/
inductive Disp16
  | none
  | d8 (d : BitVec 8)
  | d16 (d : BitVec 16)
  deriving DecidableEq, Repr

/-- The displacement after a 32-bit address form. -/
inductive Disp32
  | none
  | d8 (d : BitVec 8)
  | d32 (d : BitVec 32)
  deriving DecidableEq, Repr

/-- A memory operand in 16-bit addressing (30_encoding.md R202). -/
inductive Addr16
  /-- mod = 00, r/m = 6: a displacement and no register. -/
  | direct (d : BitVec 16)
  | base (b : Base16) (d : Disp16)
  deriving DecidableEq, Repr

/-- A memory operand in 32-bit addressing (30_encoding.md R200, R201). -/
inductive Addr32
  /-- mod = 00, r/m = 5: a displacement and no register. -/
  | direct (d : BitVec 32)
  | base (b : Gpr) (d : Disp32)
  /-- A SIB byte; the index ESP stands for no index. -/
  | sib (scale : BitVec 2) (index : Gpr) (b : Gpr) (d : Disp32)
  /-- A SIB byte with base = 5 and mod = 00: a displacement and no base register. -/
  | sibNoBase (scale : BitVec 2) (index : Gpr) (d : BitVec 32)
  deriving DecidableEq, Repr

/-- What the mod and r/m fields name (30_encoding.md R195). -/
inductive RmOp
  | reg (r : Gpr)
  | mem16 (a : Addr16)
  | mem32 (a : Addr32)
  deriving DecidableEq, Repr

/-- The far pointer of CALL, offset first (30_encoding.md R203). -/
inductive FarPtr
  | ptr16 (off : BitVec 16) (sel : Word16)
  | ptr32 (off : BitVec 32) (sel : Word16)
  deriving DecidableEq, Repr

/-- One constructor per row of spec/opcode_table.json. `p` is the instruction's prefix bytes in the order they were
written; `mod` of a special-register move is ignored by the processor and kept so that no bit is lost (R197). -/
inductive Instr
  | sgdt (p : List Prefix) (o : RmOp)
  | sidt (p : List Prefix) (o : RmOp)
  | lgdt (p : List Prefix) (o : RmOp)
  | lidt (p : List Prefix) (o : RmOp)
  | sldt (p : List Prefix) (o : RmOp)
  | str (p : List Prefix) (o : RmOp)
  | lldt (p : List Prefix) (o : RmOp)
  | ltr (p : List Prefix) (o : RmOp)
  | movFromCr (p : List Prefix) (mod : BitVec 2) (n : BitVec 3) (r : Gpr)
  | movToCr (p : List Prefix) (mod : BitVec 2) (n : BitVec 3) (r : Gpr)
  | smsw (p : List Prefix) (o : RmOp)
  | lmsw (p : List Prefix) (o : RmOp)
  | clts (p : List Prefix)
  | movFromDr (p : List Prefix) (mod : BitVec 2) (n : BitVec 3) (r : Gpr)
  | movToDr (p : List Prefix) (mod : BitVec 2) (n : BitVec 3) (r : Gpr)
  | movFromTr (p : List Prefix) (mod : BitVec 2) (n : BitVec 3) (r : Gpr)
  | movToTr (p : List Prefix) (mod : BitVec 2) (n : BitVec 3) (r : Gpr)
  | int3 (p : List Prefix)
  | wrmsr (p : List Prefix)
  | rdtsc (p : List Prefix)
  | rdmsr (p : List Prefix)
  | rdpmc (p : List Prefix)
  | cpuid (p : List Prefix)
  | callPtr (p : List Prefix) (t : FarPtr)
  | callMem (p : List Prefix) (o : RmOp)
  | iret (p : List Prefix)
  | wait (p : List Prefix)
  | esc (p : List Prefix) (x : BitVec 3) (g : BitVec 3) (o : RmOp)
  deriving DecidableEq, Repr

/-- The prefix bytes of an instruction. -/
def Instr.prefixes : Instr → List Prefix
  | .sgdt p _ => p | .sidt p _ => p | .lgdt p _ => p | .lidt p _ => p
  | .sldt p _ => p | .str p _ => p | .lldt p _ => p | .ltr p _ => p
  | .movFromCr p _ _ _ => p | .movToCr p _ _ _ => p
  | .smsw p _ => p | .lmsw p _ => p | .clts p => p
  | .movFromDr p _ _ _ => p | .movToDr p _ _ _ => p
  | .movFromTr p _ _ _ => p | .movToTr p _ _ _ => p
  | .int3 p => p | .wrmsr p => p | .rdtsc p => p | .rdmsr p => p | .rdpmc p => p | .cpuid p => p
  | .callPtr p _ => p | .callMem p _ => p | .iret p => p | .wait p => p | .esc p _ _ _ => p

end Sys2Proof
end

