-- ==== Sys2Proof/Machine/Bits.lean ====
section
/-! DEFINITION. Bit fields, byte order, sign extension (00_scope.md R7, R8; 20_memory.md R136) and the sizes that
prefix bytes select (30_encoding.md R192). -/

namespace Sys2Proof

/-- Bit `i` of `v`, numbered from the least significant (00_scope.md R7). -/
def bit {w : Nat} (v : BitVec w) (i : Nat) : Bool := v.getLsbD i

/-- `v` with bit `i` made `b`. -/
def setBit {w : Nat} (v : BitVec w) (i : Nat) (b : Bool) : BitVec w :=
  if b then v ||| BitVec.ofNat w (2 ^ i) else v &&& ~~~ BitVec.ofNat w (2 ^ i)

/-- The `len` bits of `v` from bit `lo` up (00_scope.md R7). -/
def field {w : Nat} (v : BitVec w) (lo len : Nat) : BitVec len := v.extractLsb' lo len

/-- The bits of `v` where `mask` is 0, the bits of `new` where it is 1. -/
def merge {w : Nat} (mask v new : BitVec w) : BitVec w := (v &&& ~~~ mask) ||| (new &&& mask)

/-- Four flags as a vector, `b0` lowest. -/
def bits4 (b0 b1 b2 b3 : Bool) : BitVec 4 :=
  BitVec.ofBool b3 ++ BitVec.ofBool b2 ++ BitVec.ofBool b1 ++ BitVec.ofBool b0

/-- The two bytes of a word, lowest address first (20_memory.md R136). -/
def bytes16 (v : Word16) : List Byte := [field v 0 8, field v 8 8]

/-- The four bytes of a double word, lowest address first (20_memory.md R136). -/
def bytes32 (v : Word32) : List Byte := [field v 0 8, field v 8 8, field v 16 8, field v 24 8]

/-- The word whose bytes are `b0` (lowest address) and `b1`. -/
def word16 (b0 b1 : Byte) : Word16 := b1 ++ b0

/-- The double word whose bytes are `b0` (lowest address) to `b3`. -/
def word32 (b0 b1 b2 b3 : Byte) : Word32 := b3 ++ b2 ++ b1 ++ b0

/-- The number whose bytes, lowest address first, are `bs`: `MemRead`'s value (20_memory.md R136). -/
def littleEndian : List Byte → Nat
  | [] => 0
  | b :: bs => b.toNat + 256 * littleEndian bs

/-- The `n` bytes of `v`, lowest address first. -/
def toBytes : Nat → Nat → List Byte
  | 0, _ => []
  | n + 1, v => BitVec.ofNat 8 v :: toBytes n (v / 256)

/-- `sext_16` of a byte displacement (30_encoding.md R203). -/
def sext16 (d : BitVec 8) : Word16 := d.signExtend 16

/-- `sext_32` of a byte displacement (30_encoding.md R203). -/
def sext32 (d : BitVec 8) : Word32 := d.signExtend 32

/-- `zext_32` (00_scope.md R8). -/
def zext32 {w : Nat} (v : BitVec w) : Word32 := v.setWidth 32

/-- The low 16 bits. -/
def low16 {w : Nat} (v : BitVec w) : Word16 := v.setWidth 16

/-- `v` with its low 16 bits replaced (00_scope.md R9: `x16[i] <- v`). -/
def withLow16 (v : Word32) (h : Word16) : Word32 := (v.extractLsb' 16 16) ++ h

/-- The effective operand size: the other one when a 66 byte is present (30_encoding.md R192). -/
def Prefix.operandSize (d : OpSize) (p : List Prefix) : OpSize := if .opSize ∈ p then d.other else d

/-- The effective address size: the other one when a 67 byte is present (30_encoding.md R192). -/
def Prefix.addressSize (d : OpSize) (p : List Prefix) : OpSize := if .addrSize ∈ p then d.other else d

end Sys2Proof
end

