-- ==== Sys2Proof/WellFormed.lean ====
section
/-! DEFINITION. Which instruction terms an encoding can stand for, given the default size `d` of the code segment. -/

namespace Sys2Proof

/-- Bytes of a displacement in 16-bit addressing. -/
def Disp16.size : Disp16 → Nat
  | .none => 0
  | .d8 _ => 1
  | .d16 _ => 2

/-- Bytes of a displacement in 32-bit addressing. -/
def Disp32.size : Disp32 → Nat
  | .none => 0
  | .d8 _ => 1
  | .d32 _ => 4

/-- Bytes of a ModR/M operand: the ModR/M byte, SIB and displacement (30_encoding.md R209). -/
def RmOp.size : RmOp → Nat
  | .reg _ => 1
  | .mem16 (.direct _) => 3
  | .mem16 (.base _ d) => 1 + d.size
  | .mem32 (.direct _) => 5
  | .mem32 (.base _ d) => 1 + d.size
  | .mem32 (.sib _ _ _ d) => 2 + d.size
  | .mem32 (.sibNoBase _ _ _) => 6

/-- Bytes of an immediate far pointer (30_encoding.md R203). -/
def FarPtr.size : FarPtr → Nat
  | .ptr16 _ _ => 4
  | .ptr32 _ _ => 6

/-- Bytes after the prefix bytes (30_encoding.md R208, R209). -/
def Instr.bodySize : Instr → Nat
  | .sgdt _ o => 2 + o.size | .sidt _ o => 2 + o.size | .lgdt _ o => 2 + o.size | .lidt _ o => 2 + o.size
  | .sldt _ o => 2 + o.size | .str _ o => 2 + o.size | .lldt _ o => 2 + o.size | .ltr _ o => 2 + o.size
  | .movFromCr _ _ _ _ => 3 | .movToCr _ _ _ _ => 3
  | .smsw _ o => 2 + o.size | .lmsw _ o => 2 + o.size | .clts _ => 2
  | .movFromDr _ _ _ _ => 3 | .movToDr _ _ _ _ => 3
  | .movFromTr _ _ _ _ => 3 | .movToTr _ _ _ _ => 3
  | .int3 _ => 1 | .wrmsr _ => 2 | .rdtsc _ => 2 | .rdmsr _ => 2 | .rdpmc _ => 2 | .cpuid _ => 2
  | .callPtr _ t => 1 + t.size | .callMem _ o => 1 + o.size | .iret _ => 1 | .wait _ => 1
  | .esc _ _ _ o => 1 + o.size

/-- The length in bytes, prefix bytes included (30_encoding.md R190). -/
def Instr.size (i : Instr) : Nat := i.prefixes.length + i.bodySize

/-- Mod = 00 with r/m = 6 is the direct form, so BP alone is not encodable (30_encoding.md R202). -/
def Addr16.encodable : Addr16 → Bool
  | .base .bp .none => false
  | _ => true

/-- ESP as r/m means a SIB byte, and mod = 00 with EBP is a direct form (30_encoding.md R200, R201). -/
def Addr32.encodable : Addr32 → Bool
  | .base .esp _ => false
  | .base .ebp .none => false
  | .sib _ _ .ebp .none => false
  | _ => true

/-- A memory operand has the effective address size and an encodable form. -/
def RmOp.fits (a : OpSize) : RmOp → Bool
  | .reg _ => true
  | .mem16 m => a == .s16 && m.encodable
  | .mem32 m => a == .s32 && m.encodable

/-- A far pointer has the effective operand size (30_encoding.md R203). -/
def FarPtr.fits (o : OpSize) : FarPtr → Bool
  | .ptr16 _ _ => o == .s16
  | .ptr32 _ _ => o == .s32

/-- The operands an encoding with default size `d` can carry. -/
def Instr.operandsFit (d : OpSize) : Instr → Bool
  | .sgdt p o => o.fits (Prefix.addressSize d p)
  | .sidt p o => o.fits (Prefix.addressSize d p)
  | .lgdt p o => o.fits (Prefix.addressSize d p)
  | .lidt p o => o.fits (Prefix.addressSize d p)
  | .sldt p o => o.fits (Prefix.addressSize d p)
  | .str p o => o.fits (Prefix.addressSize d p)
  | .lldt p o => o.fits (Prefix.addressSize d p)
  | .ltr p o => o.fits (Prefix.addressSize d p)
  | .smsw p o => o.fits (Prefix.addressSize d p)
  | .lmsw p o => o.fits (Prefix.addressSize d p)
  | .callMem p o => o.fits (Prefix.addressSize d p)
  | .esc p _ _ o => o.fits (Prefix.addressSize d p)
  | .callPtr p t => t.fits (Prefix.operandSize d p)
  | .movFromCr _ _ _ _ => true | .movToCr _ _ _ _ => true
  | .movFromDr _ _ _ _ => true | .movToDr _ _ _ _ => true
  | .movFromTr _ _ _ _ => true | .movToTr _ _ _ _ => true
  | .clts _ => true | .int3 _ => true | .wrmsr _ => true | .rdtsc _ => true | .rdmsr _ => true
  | .rdpmc _ => true | .cpuid _ => true | .iret _ => true | .wait _ => true

/-- At most 15 bytes (30_encoding.md R190) and operands that fit. -/
def Instr.wellFormed (d : OpSize) (i : Instr) : Bool := i.operandsFit d && decide (i.size ≤ 15)

end Sys2Proof
end

