-- ==== Sys2Proof/Decode.lean ====
section
/-! DEFINITION. The decoder and the encoder (30_encoding.md; spec/opcode_table.json). Both are total; what is no
instruction of the table is refused by name. -/

namespace Sys2Proof

/-- Why bytes are no instruction. -/
inductive DecodeError
  /-- The bytes end inside the instruction. -/
  | truncated
  /-- An instruction of more than 15 bytes (R190): step raises #UD or #NM if the instruction does, else #GP(0). -/
  | tooLong (i : Instr)
  /-- An encoding R210 makes invalid and no row of the table matches: step raises #UD. -/
  | invalidOpcode
  /-- An opcode outside R208: step refuses it (D20). -/
  | outsideSpec
  deriving DecidableEq, Repr

/-! ### Numbers in the encoding (10_state.md R20, R42; 30_encoding.md R195) -/

def Gpr.num : Gpr → BitVec 3
  | .eax => 0 | .ecx => 1 | .edx => 2 | .ebx => 3 | .esp => 4 | .ebp => 5 | .esi => 6 | .edi => 7

def Gpr.ofNum (n : BitVec 3) : Gpr :=
  if n = 0 then .eax else if n = 1 then .ecx else if n = 2 then .edx else if n = 3 then .ebx
  else if n = 4 then .esp else if n = 5 then .ebp else if n = 6 then .esi else .edi

def Base16.num : Base16 → BitVec 3
  | .bxsi => 0 | .bxdi => 1 | .bpsi => 2 | .bpdi => 3 | .si => 4 | .di => 5 | .bp => 6 | .bx => 7

def Base16.ofNum (n : BitVec 3) : Base16 :=
  if n = 0 then .bxsi else if n = 1 then .bxdi else if n = 2 then .bpsi else if n = 3 then .bpdi
  else if n = 4 then .si else if n = 5 then .di else if n = 6 then .bp else .bx

/-- The byte of a prefix (30_encoding.md R191). -/
def Prefix.byte : Prefix → Byte
  | .opSize => 0x66 | .addrSize => 0x67
  | .seg .es => 0x26 | .seg .cs => 0x2E | .seg .ss => 0x36 | .seg .ds => 0x3E | .seg .fs => 0x64 | .seg .gs => 0x65
  | .lock => 0xF0 | .repne => 0xF2 | .rep => 0xF3

/-- The prefix a byte is, if it is one (30_encoding.md R191). -/
def Prefix.ofByte (b : Byte) : Option Prefix :=
  if b = 0x66 then some .opSize else if b = 0x67 then some .addrSize
  else if b = 0x26 then some (.seg .es) else if b = 0x2E then some (.seg .cs)
  else if b = 0x36 then some (.seg .ss) else if b = 0x3E then some (.seg .ds)
  else if b = 0x64 then some (.seg .fs) else if b = 0x65 then some (.seg .gs)
  else if b = 0xF0 then some .lock else if b = 0xF2 then some .repne else if b = 0xF3 then some .rep
  else none

/-! ### Reading bytes -/

/-- The prefix bytes at the front, and what follows them (30_encoding.md R209). -/
def splitPrefixes : List Byte → List Prefix × List Byte
  | [] => ([], [])
  | b :: bs =>
    match Prefix.ofByte b with
    | some x => (x :: (splitPrefixes bs).1, (splitPrefixes bs).2)
    | none => ([], b :: bs)

def take8 : List Byte → Except DecodeError (Byte × List Byte)
  | b :: bs => .ok (b, bs)
  | [] => .error .truncated

def take16 : List Byte → Except DecodeError (Word16 × List Byte)
  | b0 :: b1 :: bs => .ok (word16 b0 b1, bs)
  | _ => .error .truncated

def take32 : List Byte → Except DecodeError (Word32 × List Byte)
  | b0 :: b1 :: b2 :: b3 :: bs => .ok (word32 b0 b1 b2 b3, bs)
  | _ => .error .truncated

/-- The displacement that mod asks for in 16-bit addressing (30_encoding.md R202). -/
def takeDisp16 (mod : BitVec 2) (bs : List Byte) : Except DecodeError (Disp16 × List Byte) :=
  if mod = 0 then .ok (.none, bs)
  else if mod = 1 then do let (d, bs) ← take8 bs; .ok (.d8 d, bs)
  else do let (d, bs) ← take16 bs; .ok (.d16 d, bs)

/-- The displacement that mod asks for in 32-bit addressing (30_encoding.md R200). -/
def takeDisp32 (mod : BitVec 2) (bs : List Byte) : Except DecodeError (Disp32 × List Byte) :=
  if mod = 0 then .ok (.none, bs)
  else if mod = 1 then do let (d, bs) ← take8 bs; .ok (.d8 d, bs)
  else do let (d, bs) ← take32 bs; .ok (.d32 d, bs)

/-- The operand after a ModR/M byte with fields `mod` and `rm` (30_encoding.md R200 to R202). -/
def takeRm (a : OpSize) (mod : BitVec 2) (rm : BitVec 3) (bs : List Byte) : Except DecodeError (RmOp × List Byte) :=
  if mod = 3 then .ok (.reg (Gpr.ofNum rm), bs)
  else match a with
  | .s16 =>
    if mod = 0 ∧ rm = 6 then do let (d, bs) ← take16 bs; .ok (.mem16 (.direct d), bs)
    else do let (d, bs) ← takeDisp16 mod bs; .ok (.mem16 (.base (Base16.ofNum rm) d), bs)
  | .s32 =>
    if rm = 4 then do
      let (sib, bs) ← take8 bs
      if mod = 0 ∧ field sib 0 3 = 5 then do
        let (d, bs) ← take32 bs
        .ok (.mem32 (.sibNoBase (field sib 6 2) (Gpr.ofNum (field sib 3 3)) d), bs)
      else do
        let (d, bs) ← takeDisp32 mod bs
        .ok (.mem32 (.sib (field sib 6 2) (Gpr.ofNum (field sib 3 3)) (Gpr.ofNum (field sib 0 3)) d), bs)
    else if mod = 0 ∧ rm = 5 then do let (d, bs) ← take32 bs; .ok (.mem32 (.direct d), bs)
    else do let (d, bs) ← takeDisp32 mod bs; .ok (.mem32 (.base (Gpr.ofNum rm) d), bs)

/-- An instruction whose ModR/M byte names a special register: mod is ignored and nothing follows (30_encoding.md R197). -/
def takeSpecial (make : BitVec 2 → BitVec 3 → Gpr → Instr) (bs : List Byte) : Except DecodeError (Instr × List Byte) := do
  let (m, bs) ← take8 bs
  .ok (make (field m 6 2) (field m 3 3) (Gpr.ofNum (field m 0 3)), bs)

/-- An instruction of a group, with its r/m operand. -/
def takeOperand (make : RmOp → Instr) (a : OpSize) (m : Byte) (bs : List Byte) : Except DecodeError (Instr × List Byte) := do
  let (o, bs) ← takeRm a (field m 6 2) (field m 0 3) bs
  .ok (make o, bs)

/-- Opcode 0F 00: the reg field selects (30_encoding.md R196, R210). -/
def decodeGroup00 (p : List Prefix) (a : OpSize) (bs : List Byte) : Except DecodeError (Instr × List Byte) := do
  let (m, bs) ← take8 bs
  let g := field m 3 3
  if g = 0 then takeOperand (.sldt p) a m bs
  else if g = 1 then takeOperand (.str p) a m bs
  else if g = 2 then takeOperand (.lldt p) a m bs
  else if g = 3 then takeOperand (.ltr p) a m bs
  else if g = 4 ∨ g = 5 then .error .outsideSpec
  else .error .invalidOpcode

/-- Opcode 0F 01: the reg field selects (30_encoding.md R196, R210). -/
def decodeGroup01 (p : List Prefix) (a : OpSize) (bs : List Byte) : Except DecodeError (Instr × List Byte) := do
  let (m, bs) ← take8 bs
  let g := field m 3 3
  if g = 0 then takeOperand (.sgdt p) a m bs
  else if g = 1 then takeOperand (.sidt p) a m bs
  else if g = 2 then takeOperand (.lgdt p) a m bs
  else if g = 3 then takeOperand (.lidt p) a m bs
  else if g = 4 then takeOperand (.smsw p) a m bs
  else if g = 5 then .error .invalidOpcode
  else if g = 6 then takeOperand (.lmsw p) a m bs
  else if field m 6 2 = 3 then .error .invalidOpcode
  else .error .outsideSpec

/-- The opcodes after 0F (30_encoding.md R208, R210). -/
def decodeTwoByte (p : List Prefix) (a : OpSize) (bs : List Byte) : Except DecodeError (Instr × List Byte) := do
  let (b, bs) ← take8 bs
  if b = 0x00 then decodeGroup00 p a bs
  else if b = 0x01 then decodeGroup01 p a bs
  else if b = 0x06 then .ok (.clts p, bs)
  else if b = 0x20 then takeSpecial (.movFromCr p) bs
  else if b = 0x21 then takeSpecial (.movFromDr p) bs
  else if b = 0x22 then takeSpecial (.movToCr p) bs
  else if b = 0x23 then takeSpecial (.movToDr p) bs
  else if b = 0x24 then takeSpecial (.movFromTr p) bs
  else if b = 0x25 then .error .invalidOpcode
  else if b = 0x26 then takeSpecial (.movToTr p) bs
  else if b = 0x27 then .error .invalidOpcode
  else if b = 0x30 then .ok (.wrmsr p, bs)
  else if b = 0x31 then .ok (.rdtsc p, bs)
  else if b = 0x32 then .ok (.rdmsr p, bs)
  else if b = 0x33 then .ok (.rdpmc p, bs)
  else if b = 0xA2 then .ok (.cpuid p, bs)
  else .error .outsideSpec

/-- The immediate far pointer of 9A: 4 or 6 bytes by operand size (30_encoding.md R203). -/
def takeFar (o : OpSize) (bs : List Byte) : Except DecodeError (FarPtr × List Byte) :=
  match o with
  | .s16 => do let (off, bs) ← take16 bs; let (sel, bs) ← take16 bs; .ok (.ptr16 off sel, bs)
  | .s32 => do let (off, bs) ← take32 bs; let (sel, bs) ← take16 bs; .ok (.ptr32 off sel, bs)

/-- The bytes after the prefix bytes (30_encoding.md R208). -/
def decodeBody (p : List Prefix) (o a : OpSize) (bs : List Byte) : Except DecodeError (Instr × List Byte) := do
  let (b, bs) ← take8 bs
  if b = 0x0F then decodeTwoByte p a bs
  else if b = 0x9A then do let (t, bs) ← takeFar o bs; .ok (.callPtr p t, bs)
  else if b = 0x9B then .ok (.wait p, bs)
  else if b = 0xCC then .ok (.int3 p, bs)
  else if b = 0xCF then .ok (.iret p, bs)
  else if b = 0xFF then do
    let (m, bs) ← take8 bs
    if field m 3 3 = 3 then takeOperand (.callMem p) a m bs else .error .outsideSpec
  else if field b 3 5 = 0x1B then do
    let (m, bs) ← take8 bs
    takeOperand (.esc p (field b 0 3) (field m 3 3)) a m bs
  else .error .outsideSpec

/-- The instruction at the front of `bs` with default size `d`, and the bytes after it (30_encoding.md R209).
More than 15 bytes are refused (R190). -/
def decode (d : OpSize) (bs : List Byte) : Except DecodeError (Instr × List Byte) :=
  let p := (splitPrefixes bs).1
  match decodeBody p (Prefix.operandSize d p) (Prefix.addressSize d p) (splitPrefixes bs).2 with
  | .ok (i, rest) => if i.size ≤ 15 then .ok (i, rest) else .error (.tooLong i)
  | .error e => .error e

/-! ### The encoder -/

/-- A ModR/M or SIB byte from its three fields (30_encoding.md R195, R201). -/
def modRm (mod : BitVec 2) (reg rm : BitVec 3) : Byte := mod ++ reg ++ rm

def Disp16.mod : Disp16 → BitVec 2
  | .none => 0 | .d8 _ => 1 | .d16 _ => 2

def Disp16.bytes : Disp16 → List Byte
  | .none => [] | .d8 d => [d] | .d16 d => bytes16 d

def Disp32.mod : Disp32 → BitVec 2
  | .none => 0 | .d8 _ => 1 | .d32 _ => 2

def Disp32.bytes : Disp32 → List Byte
  | .none => [] | .d8 d => [d] | .d32 d => bytes32 d

/-- ModR/M byte, SIB byte and displacement of an operand, with `g` in the reg field. -/
def encodeRm (g : BitVec 3) : RmOp → List Byte
  | .reg r => [modRm 3 g r.num]
  | .mem16 (.direct d) => modRm 0 g 6 :: bytes16 d
  | .mem16 (.base b d) => modRm d.mod g b.num :: d.bytes
  | .mem32 (.direct d) => modRm 0 g 5 :: bytes32 d
  | .mem32 (.base b d) => modRm d.mod g b.num :: d.bytes
  | .mem32 (.sib s x b d) => modRm d.mod g 4 :: modRm s x.num b.num :: d.bytes
  | .mem32 (.sibNoBase s x d) => modRm 0 g 4 :: modRm s x.num 5 :: bytes32 d

def encodeFar : FarPtr → List Byte
  | .ptr16 off sel => bytes16 off ++ bytes16 sel
  | .ptr32 off sel => bytes32 off ++ bytes16 sel

/-- The bytes after the prefix bytes (30_encoding.md R208). -/
def encodeBody : Instr → List Byte
  | .sgdt _ o => [0x0F, 0x01] ++ encodeRm 0 o
  | .sidt _ o => [0x0F, 0x01] ++ encodeRm 1 o
  | .lgdt _ o => [0x0F, 0x01] ++ encodeRm 2 o
  | .lidt _ o => [0x0F, 0x01] ++ encodeRm 3 o
  | .sldt _ o => [0x0F, 0x00] ++ encodeRm 0 o
  | .str _ o => [0x0F, 0x00] ++ encodeRm 1 o
  | .lldt _ o => [0x0F, 0x00] ++ encodeRm 2 o
  | .ltr _ o => [0x0F, 0x00] ++ encodeRm 3 o
  | .movFromCr _ m n r => [0x0F, 0x20, modRm m n r.num]
  | .movToCr _ m n r => [0x0F, 0x22, modRm m n r.num]
  | .smsw _ o => [0x0F, 0x01] ++ encodeRm 4 o
  | .lmsw _ o => [0x0F, 0x01] ++ encodeRm 6 o
  | .clts _ => [0x0F, 0x06]
  | .movFromDr _ m n r => [0x0F, 0x21, modRm m n r.num]
  | .movToDr _ m n r => [0x0F, 0x23, modRm m n r.num]
  | .movFromTr _ m n r => [0x0F, 0x24, modRm m n r.num]
  | .movToTr _ m n r => [0x0F, 0x26, modRm m n r.num]
  | .int3 _ => [0xCC]
  | .wrmsr _ => [0x0F, 0x30]
  | .rdtsc _ => [0x0F, 0x31]
  | .rdmsr _ => [0x0F, 0x32]
  | .rdpmc _ => [0x0F, 0x33]
  | .cpuid _ => [0x0F, 0xA2]
  | .callPtr _ t => 0x9A :: encodeFar t
  | .callMem _ o => 0xFF :: encodeRm 3 o
  | .iret _ => [0xCF]
  | .wait _ => [0x9B]
  | .esc _ x g o => ((0x1B : BitVec 5) ++ x : BitVec 8) :: encodeRm g o

/-- The bytes of an instruction, at ascending addresses. -/
def encode (i : Instr) : List Byte := i.prefixes.map Prefix.byte ++ encodeBody i

/-- The length the machine advances EIP by: the bytes of the instruction, prefix bytes included (10_state.md R23). -/
def Instr.length (i : Instr) : Nat := (encode i).length

/-! ### The host's words (log 5) -/

/-- The bytes of a table word read as the reader of the table numbered it: one number over the bytes in address order,
so that the first byte is the most significant ("fixed" of SGDT: bits 23 to 8 are 0F 01). -/
def tableBytesBig : Nat → Nat → List Byte
  | 0, _ => []
  | n + 1, w => BitVec.ofNat 8 (w / 256 ^ n) :: tableBytesBig n w

/-- The bytes of a table word with the first byte least significant. -/
def tableBytesLittle (n w : Nat) : List Byte := toBytes n w

/-- Fifteen bytes, the longest instruction: `bs` and then zeros. -/
def padded (bs : List Byte) : List Byte := (bs ++ List.replicate 15 0).take 15

/-- Whether `bs`, padded with zeros, is an instruction that takes up all of `bs`, in 16-bit code. -/
def wholeInstr (bs : List Byte) : Option Instr :=
  match decode .s16 (padded bs) with
  | .ok (i, _) => if bs.length ≤ i.length then some i else none
  | .error _ => none

/-- The bytes a host's word stands for: the numbering of the table's "fixed" fields when they are an instruction that
way, else the other one when they are one that way (log 5). -/
def tableBytes (nbits w : Nat) : List Byte :=
  let n := nbits / 8
  if (wholeInstr (tableBytesBig n w)).isSome then tableBytesBig n w
  else if (wholeInstr (tableBytesLittle n w)).isSome then tableBytesLittle n w
  else tableBytesBig n w

/-- The instruction the decoder reads from a host's word, in the 16-bit code that runs after reset (10_state.md R125). -/
def decodeTableWord (nbits w : Nat) : Option Instr := wholeInstr (tableBytes nbits w)

end Sys2Proof
end

