-- ==== Sys2Proof/Machine/Registers.lean ====
section
/-! DEFINITION. The registers with more than one field, and the contents of memory (10_state.md). -/

namespace Sys2Proof.Machine

/-- The general registers (10_state.md R20). -/
structure Gprs where
  eax : Word32
  ecx : Word32
  edx : Word32
  ebx : Word32
  esp : Word32
  ebp : Word32
  esi : Word32
  edi : Word32
  deriving DecidableEq, Repr

/-- An invisible cache register: the 64 bits of a descriptor (10_state.md R44; 20_memory.md R149). In `attr` bit 11 is G,
10 D/B, 8 AVL, 7 P, 6 to 5 DPL, 4 S, 3 to 0 TYPE. -/
structure SegCache where
  base : Word32
  limit : BitVec 20
  attr : BitVec 12
  deriving DecidableEq, Repr

/-- A register with a selector and an invisible cache: CS to GS, LDTR, TR (10_state.md R42, R51, R54). -/
structure SegState where
  sel : Word16
  cache : SegCache
  deriving DecidableEq, Repr

/-- The six segment registers (10_state.md R42). -/
structure Segs where
  es : SegState
  cs : SegState
  ss : SegState
  ds : SegState
  fs : SegState
  gs : SegState
  deriving DecidableEq, Repr

/-- GDTR or IDTR (10_state.md R48, R49). -/
structure TableReg where
  base : Word32
  limit : Word16
  deriving DecidableEq, Repr

/-- One entry of the TLB (10_state.md R111). -/
structure TlbEntry where
  lin : BitVec 20
  v : Bool
  d : Bool
  u : Bool
  w : Bool
  phys : BitVec 20
  deriving DecidableEq, Repr

/-- The model-specific registers (10_state.md R114 to R118). -/
structure Msrs where
  /-- 00h. -/
  mcAddr : Word64
  /-- 01h. -/
  mcType : Word64
  /-- 02h. -/
  tr1 : Word64
  /-- 04h. -/
  tr2 : Word64
  /-- 05h. -/
  tr3 : Word64
  /-- 06h. -/
  tr4 : Word64
  /-- 07h. -/
  tr5 : Word64
  /-- 08h. -/
  tr6 : Word64
  /-- 09h. -/
  tr7 : Word64
  /-- 0Bh. -/
  tr9 : Word64
  /-- 0Ch. -/
  tr10 : Word64
  /-- 0Dh. -/
  tr11 : Word64
  /-- 0Eh. -/
  tr12 : Word64
  /-- 10h, the time-stamp counter. -/
  tsc : Word64
  /-- 11h. -/
  cesr : Word64
  /-- 12h. -/
  ctr0 : BitVec 40
  /-- 13h. -/
  ctr1 : BitVec 40
  deriving DecidableEq, Repr

/-- Memory as the bytes that differ from what an unlisted address reads as, at strictly rising addresses (log 2). -/
abbrev Memory := List Host.Cell

end Sys2Proof.Machine
end

