-- ==== Sys2Proof/Config.lean ====
section
/-! DEFINITION. What a part fixes (the parameters of 00_scope.md R6, as plain data) and the free values (opaque constants). -/

namespace Sys2Proof

open Sys2Proof.Machine

/-- `AC_RULE`: which operand addresses the alignment check rejects (20_memory.md R138, D7). -/
inductive AcRule
  /-- An address that is no multiple of the operand's own size. -/
  | natural
  /-- The source's words: an address that is no multiple of 4. -/
  | multipleOf4
  deriving DecidableEq, Repr

/-- `FEATURES`: the CR4 bits and instructions a part has (00_scope.md R2, R6), and the options without a CR4 bit that R292 gives a
flag. -/
structure Features where
  vme : Bool
  pvi : Bool
  tsd : Bool
  de : Bool
  pse : Bool
  mce : Bool
  pge : Bool
  pce : Bool
  osfxsr : Bool
  osxmmexcpt : Bool
  cr4 : Bool
  cpuid : Bool
  rdtsc : Bool
  rdpmc : Bool
  rdmsr : Bool
  wrmsr : Bool
  /-- A floating-point unit on the chip. -/
  fpu : Bool
  /-- CMPXCHG8B. -/
  cx8 : Bool
  /-- An APIC on the chip. -/
  apic : Bool
  mmx : Bool
  deriving DecidableEq, Repr

/-- One row of `CPUID_TABLE` (43_model_specific_instructions.md R292). -/
structure CpuidRow where
  eax : Word32
  ebx : Word32
  ecx : Word32
  edx : Word32
  deriving DecidableEq, Repr

/-- What answers at a physical address (`MEM_MAP`, D4). -/
inductive MemKind
  /-- Ordinary read/write memory (20_memory.md R142). -/
  | ram
  /-- Memory that a write leaves as it is. -/
  | rom
  /-- A device: outside the spec (20_memory.md R142). -/
  | device
  deriving DecidableEq, Repr

/-- A region of `MEM_MAP`: the physical addresses from `first` to `last`. -/
structure MemRegion where
  first : Word32
  last : Word32
  kind : MemKind
  deriving DecidableEq, Repr

/-- `RESET_STATE`: the value of every register after reset (00_scope.md R6, D10). -/
structure ResetState where
  gpr : Gprs
  eip : Word32
  eflags : Word32
  segs : Segs
  gdtr : TableReg
  idtr : TableReg
  ldtr : SegState
  tr : SegState
  cr0 : Word32
  cr2 : Word32
  cr3 : Word32
  cr4 : Word32
  dr0 : Word32
  dr1 : Word32
  dr2 : Word32
  dr3 : Word32
  dr6 : Word32
  dr7 : Word32
  tr6 : Word32
  tr7 : Word32
  msr : Msrs
  cpl : BitVec 2
  deriving DecidableEq, Repr

/-- `TLB_INDEX`: the three bits of the linear page number, low to high, that name the entry of a block (42 R268; 92 section 2). -/
structure TlbIndexBits where
  b0 : Fin 20
  b1 : Fin 20
  b2 : Fin 20
  deriving DecidableEq, Repr

/-- The arguments a model of this spec takes (00_scope.md R6; 92_eei_decisions.md section 2; log 1). -/
structure Part where
  features : Features
  /-- `MSR_SET`: the numbers that exist (43_model_specific_instructions.md R281). -/
  msrSet : List Word32
  /-- `MSR_SET`: the numbers of it that are not writable (92 section 2, U16). -/
  msrReadOnly : List Word32
  /-- `CPUID_TABLE`: the row of input 0. -/
  cpuidVendor : CpuidRow
  /-- `CPUID_TABLE`: EBX and ECX of input 1 (R292). -/
  cpuidEbx : Word32
  cpuidEcx : Word32
  /-- `CPUID_TABLE`: the feature flags of input 1 that belong to no option of `FEATURES` (R292, N1). -/
  cpuidOtherFlags : Word32
  /-- `CPUID_TABLE`: rows of inputs above 1; an input without one has the row of input 1. -/
  cpuidRows : List (Word32 × CpuidRow)
  resetState : ResetState
  /-- `MEM_MAP`: the first region that holds an address says what answers there; outside all of them it is memory. -/
  memMap : List MemRegion
  /-- `MEM_MAP`: the initial contents of memory. -/
  memInit : Memory
  acRule : AcRule
  tlbIndex : TlbIndexBits
  /-- `TSS_T_BIT_OFFSET`: the byte of the TSS that holds T, and the bit of that byte (20_memory.md R158). -/
  tssTByte : Word32
  tssTBit : BitVec 3
  /-- What the nameless bits of DR6 read as (D18). -/
  dr6Pattern : Word32
  /-- What the nameless bits of DR7 read as (D18). -/
  dr7Pattern : Word32
  deriving DecidableEq, Repr

/-- The processor signature: EDX after reset (10_state.md R125; 43_model_specific_instructions.md R292). -/
def Part.signature (p : Part) : Word32 := p.resetState.gpr.edx

/-- What answers at a physical address (`MEM_MAP`). -/
def Part.kindAt (p : Part) (pa : Word32) : MemKind :=
  match p.memMap.find? fun r => decide (r.first ≤ pa) && decide (pa ≤ r.last) with
  | some r => r.kind
  | none => .ram

/-- Every option the source names; the labels OSFXSR and OSXMMEXCPT are not options (D17), and of the options that only R292 names
the FPU (V82). -/
def Features.default : Features :=
  { vme := true, pvi := true, tsd := true, de := true, pse := true, mce := true, pge := true, pce := true,
    osfxsr := false, osxmmexcpt := false, cr4 := true, cpuid := true, rdtsc := true, rdpmc := true, rdmsr := true, wrmsr := true,
    fpu := true, cx8 := false, apic := false, mmx := false }

/-- A data segment register after reset (10_state.md R125, log 4). -/
def Machine.SegState.afterReset : SegState := { sel := 0, cache := { base := 0, limit := 0xFFFF, attr := 0x093 } }

/-- The table of 10_state.md R125; what it leaves unspecified is 0 (log 3, log 4). -/
def ResetState.default : ResetState :=
  { gpr := { eax := 0, ecx := 0, edx := 0x0000052C, ebx := 0, esp := 0, ebp := 0, esi := 0, edi := 0 }
    eip := 0x0000FFF0
    eflags := 0x00000002
    segs :=
      { es := .afterReset
        cs := { sel := 0xF000, cache := { base := 0xFFFF0000, limit := 0xFFFF, attr := 0x093 } }
        ss := .afterReset, ds := .afterReset, fs := .afterReset, gs := .afterReset }
    gdtr := { base := 0, limit := 0xFFFF }
    idtr := { base := 0, limit := 0xFFFF }
    ldtr := { sel := 0, cache := { base := 0, limit := 0xFFFF, attr := 0x082 } }
    tr := { sel := 0, cache := { base := 0, limit := 0xFFFF, attr := 0x08B } }
    cr0 := 0x60000010, cr2 := 0, cr3 := 0, cr4 := 0
    dr0 := 0, dr1 := 0, dr2 := 0, dr3 := 0, dr6 := 0, dr7 := 0
    tr6 := 0, tr7 := 0
    msr :=
      { mcAddr := 0, mcType := 0, tr1 := 0, tr2 := 0, tr3 := 0, tr4 := 0, tr5 := 0, tr6 := 0, tr7 := 0, tr9 := 0, tr10 := 0,
        tr11 := 0, tr12 := 0, tsc := 0, cesr := 0, ctr0 := 0, ctr1 := 0 }
    cpl := 0 }

/-- The defaults of 92_eei_decisions.md section 2 (log 1). -/
def Part.default : Part :=
  { features := .default
    msrSet := [0x00, 0x01, 0x0E, 0x10]
    msrReadOnly := []
    cpuidVendor := { eax := 1, ebx := 0x756E6547, ecx := 0x6C65746E, edx := 0x49656E69 }
    cpuidEbx := 0
    cpuidEcx := 0
    cpuidOtherFlags := 0
    cpuidRows := []
    resetState := .default
    memMap := []
    memInit := []
    acRule := .natural
    tlbIndex := { b0 := 0, b1 := 1, b2 := 2 }
    tssTByte := 0x64
    tssTBit := 0
    dr6Pattern := 0xFFFF0FF0
    dr7Pattern := 0x00000400 }

/-! Free values. Each is a constant without a body applied to the number of free values used so far (`State.draws`);
no proof can see one (log 12). -/

/-- The sixth byte SGDT and SIDT store with 16-bit operand size (U2). -/
opaque Config.storedTopByte : Nat → Byte

/-- Bits 31:16 of a 32-bit register destination of SLDT, STR, SMSW (U3). -/
opaque Config.upperHalf : Nat → Word16

/-- The block of the TLB that a walk's translation is put in, or none when it is not kept (20_memory.md R169, D11). -/
opaque Config.tlbFill : Nat → Option (BitVec 2)

/-- Whether entry `j` of the TLB outlives the fill (20_memory.md R169, D11). -/
opaque Config.tlbKeeps : Nat → Nat → Bool

/-- The attributes D, U, W (bits 2, 1, 0) a TLB write stores for an undefined pair (U7). -/
opaque Config.tlbWrittenAttr : Nat → BitVec 3

/-- TR7.PHYSICAL and TR7.REP after a lookup that misses (U8). -/
opaque Config.tr7AfterMiss : Nat → BitVec 20 × BitVec 2

/-- Whether condition `n` matches when its fields leave that open (U5, U6), and Bn of a condition met that raises no #DB
of its own (U13; log 33). -/
opaque Config.breakpointDraw : Nat → BitVec 4

/-- Bits 31:16 of general register `n` after a switch to a task with a 16-bit TSS, which holds 16 bits of each (log 45). -/
opaque Config.tssUpper : Nat → BitVec 3 → Word16

/-- How far the time-stamp counter moves in one step, less one: `TSC_RATE`, a positive amount (D12). -/
opaque Config.tscAdvance : Nat → Nat

/-- What counters 0 and 1 hold after a step (43_model_specific_instructions.md R288). -/
opaque Config.eventCounters : Nat → BitVec 40 × BitVec 40

end Sys2Proof
end

