-- ==== Sys2Proof/Machine/State.lean ====
section
/-! DEFINITION. The state of the machine, the reasons a step stops, and the state after reset (10_state.md). -/

namespace Sys2Proof.Machine

/-- Why the machine stops with a fault. -/
inductive Fault
  /-- Raised by `step` when the processor is shut down after a fault during the delivery of a double fault and no NMI
  and no reset is asserted (60_exceptions.md R363: no further steps). Safe: the spec gives no next state. -/
  | shutdown
  deriving DecidableEq, Repr

/-- Why an instruction or a form of one has no meaning here. -/
inductive Refusal
  /-- Answered by an arm of `exec` whose instruction has no meaning yet. Safe. -/
  | notModelled (mnemonic : String)
  /-- Answered by `step` for an opcode outside 30_encoding.md R208 (D20, U14). Safe. -/
  | outsideSpec
  /-- Answered by every instruction with an F2 or F3 byte and no LOCK byte (U10). Safe. -/
  | repeatPrefix
  /-- Answered by MOV to TR6 for a TLB write with TR7.HT = 0 (U9). Safe. -/
  | tlbWriteWithoutHt
  /-- Answered by a TLB lookup that finds two valid entries of one linear page (U9). Safe. -/
  | tlbDuplicate
  /-- Answered by CPUID with EFLAGS.ID = 0 (D13, U11). Safe. -/
  | cpuidIdClear
  /-- Answered by RDMSR and WRMSR in Real Mode (D22, U12). Safe. -/
  | msrRealMode
  /-- Answered by MOV to and from TR0 to TR5, which do not exist in the source (D19, D20). Safe. -/
  | noTestRegister
  /-- Answered by a far CALL in Protected Mode to a code segment or a call gate (44 R301, D20). Safe. -/
  | farCallTarget
  /-- Answered by a fault in the middle of a task switch (U17). Safe. -/
  | taskSwitchFault
  /-- Answered by an access to an address at which `MEM_MAP` puts a device: its behaviour is outside the spec (20_memory.md
  R142). Safe. -/
  | deviceAccess
  /-- Answered by an ESC that passes the EM, TS and pending-error checks (44 R306, D20): the floating-point operation. Safe. -/
  | fpuOperation
  deriving DecidableEq, Repr

/-- An exception of the spec with what its delivery needs (60_exceptions.md R320). -/
inductive Exn
  /-- #DB with the DR6 flags it sets (R332); `atInstr` for an instruction breakpoint (R336). -/
  | db (flags : Word32) (atInstr : Bool)
  | ud
  | nm
  | df
  | ts (code : Word32)
  | np (code : Word32)
  | ss (code : Word32)
  | gp (code : Word32)
  /-- #PF with the linear address for CR2 (R326). -/
  | pf (lin : Word32) (code : Word32)
  | mf
  | ac
  deriving DecidableEq, Repr

/-- Why a piece of an instruction has no result. -/
inductive Stop
  | exc (e : Exn)
  | refused (r : Refusal)
  deriving DecidableEq, Repr

/-- What the processor is doing (60_exceptions.md R363, R385). -/
inductive Activity
  | running
  /-- Stopped before a floating-point instruction or WAIT until an interrupt is delivered (44 R309). -/
  | waiting
  /-- Shut down (60 R363). -/
  | shutdown
  deriving DecidableEq, Repr

/-- The debug conditions the instruction just completed has left (60_exceptions.md R332, R334, R335). -/
structure Pending where
  /-- Enabled breakpoint conditions that a data access met. -/
  hits : BitVec 4
  /-- Conditions met that raise no #DB of their own: disabled ones, also where their fields leave the match open (U13), and enabled
  instruction breakpoints that RF suppressed (log 33). -/
  disabled : BitVec 4
  /-- The instruction began with TF = 1. -/
  singleStep : Bool
  /-- It switched to a task whose T bit is 1. -/
  taskSwitch : Bool
  deriving DecidableEq, Repr

/-- A failed bus cycle as the environment reports it (60_exceptions.md R329). -/
structure MachineCheck where
  addr : Word64
  kind : Word64
  deriving DecidableEq, Repr

/-- The inputs of the environment (92_eei_decisions.md section 3; 10_state.md R123). -/
structure Env where
  reset : Bool
  machineCheck : Option MachineCheck
  nmi : Bool
  /-- A maskable interrupt request with its vector. -/
  intr : Option Byte
  /-- An unmasked numeric error is pending (44 R309). -/
  numericError : Bool
  /-- IGNNE# is asserted: the pin is 0. -/
  ignneLow : Bool
  /-- KEN# is asserted: the pin is 0. -/
  kenLow : Bool
  deriving DecidableEq, Repr

/-- Everything the spec gives the machine, the inputs of its environment, the parameters of the part and the count of
free values used. INVENTORY.md lists each field with its rule and its reset value. -/
structure State where
  gpr : Gprs
  eip : Word32
  eflags : Word32
  segs : Segs
  gdtr : TableReg
  idtr : TableReg
  ldtr : SegState
  tr : SegState
  cr0 : Word32
  cr2 : Word32
  cr3 : Word32
  cr4 : Word32
  dr0 : Word32
  dr1 : Word32
  dr2 : Word32
  dr3 : Word32
  dr6 : Word32
  dr7 : Word32
  tr6 : Word32
  tr7 : Word32
  tlb : List TlbEntry
  msr : Msrs
  cplField : BitVec 2
  nmiBlocked : Bool
  activity : Activity
  pending : Pending
  env : Env
  mem : Memory
  part : Part
  draws : Nat
  deriving DecidableEq, Repr

/-- No debug condition is pending. -/
def Pending.none : Pending := { hits := 0, disabled := 0, singleStep := false, taskSwitch := false }

/-- Inputs inactive (92_eei_decisions.md section 2, `PINS`). -/
def Env.inactive : Env :=
  { reset := false, machineCheck := .none, nmi := false, intr := .none, numericError := false, ignneLow := false, kenLow := false }

/-- An entry that holds no translation. -/
def TlbEntry.invalid : TlbEntry := { lin := 0, v := false, d := false, u := false, w := false, phys := 0 }

/-- The state after reset of part `p`: the registers of `RESET_STATE`, every TLB entry invalid, the initial contents of memory
(10_state.md R125; 20_memory.md R143; 70_reset_and_hazards.md R390 to R392). -/
def State.resetOf (p : Part) : State :=
  let r := p.resetState
  { gpr := r.gpr, eip := r.eip, eflags := r.eflags, segs := r.segs, gdtr := r.gdtr, idtr := r.idtr, ldtr := r.ldtr, tr := r.tr
    cr0 := r.cr0, cr2 := r.cr2, cr3 := r.cr3, cr4 := r.cr4
    dr0 := r.dr0, dr1 := r.dr1, dr2 := r.dr2, dr3 := r.dr3, dr6 := r.dr6, dr7 := r.dr7, tr6 := r.tr6, tr7 := r.tr7
    tlb := List.replicate 32 .invalid
    msr := r.msr
    cplField := r.cpl
    nmiBlocked := false
    activity := .running
    pending := .none
    env := .inactive
    mem := p.memInit
    part := p
    draws := 0 }

/-- The machine right after reset, with the default parameters (log 1). -/
def State.reset : State := .resetOf .default

end Sys2Proof.Machine
end

