-- ==== Sys2Proof/Machine/Flags.lean ====
section
/-! DEFINITION. The named bits of EFLAGS, CR0, CR3, CR4, DR6, DR7, TR6 and TR7, the modes, and how a value loaded into
one of these registers is masked (10_state.md; 60_exceptions.md R374). No instruction of the table computes an arithmetic
flag (00_scope.md R11), so loading an image is the only flag computation. -/

namespace Sys2Proof.Machine

/-! ### EFLAGS (10_state.md R24) -/

def State.tf (s : State) : Bool := bit s.eflags 8
def State.ifl (s : State) : Bool := bit s.eflags 9
def State.iopl (s : State) : BitVec 2 := field s.eflags 12 2
def State.nt (s : State) : Bool := bit s.eflags 14
def State.rf (s : State) : Bool := bit s.eflags 16
def State.vm (s : State) : Bool := bit s.eflags 17
def State.ac (s : State) : Bool := bit s.eflags 18
def State.vip (s : State) : Bool := bit s.eflags 20
def State.idf (s : State) : Bool := bit s.eflags 21

/-- The bits Figure 11.8 names (10_state.md R24, R36). -/
def eflagsNamed : Word32 := 0x003F7FD5

/-- A value as EFLAGS holds it: bit 1 is 1, bits 3, 5, 15 and 31:22 are 0 (R36, D1). -/
def fixEflags (v : Word32) : Word32 := (v &&& eflagsNamed) ||| 2

/-- As `fixEflags`, and ID is 0 on a part without CPUID (D13). -/
def State.fixImage (s : State) (v : Word32) : Word32 :=
  if s.part.features.cpuid then fixEflags v else setBit (fixEflags v) 21 false

/-- Clear RF: every instruction that completes (60_exceptions.md R336). -/
def clearRf (fl : Word32) : Word32 := setBit fl 16 false

/-! ### CR0 (10_state.md R61) -/

def State.pe (s : State) : Bool := bit s.cr0 0
def State.mp (s : State) : Bool := bit s.cr0 1
def State.em (s : State) : Bool := bit s.cr0 2
def State.ts (s : State) : Bool := bit s.cr0 3
def State.ne (s : State) : Bool := bit s.cr0 5
def State.wp (s : State) : Bool := bit s.cr0 16
def State.am (s : State) : Bool := bit s.cr0 18
def State.cd (s : State) : Bool := bit s.cr0 30
def State.pg (s : State) : Bool := bit s.cr0 31

/-- The bits a MOV to CR0 writes: PG CD NW AM WP NE TS EM MP PE (41 R243). -/
def cr0Writable : Word32 := 0xE005002F

/-- A value as CR0 holds it: ET reads 1, the nameless bits 0 (D14, D16). -/
def fixCr0 (v : Word32) : Word32 := (v &&& cr0Writable) ||| 0x10

/-! ### CR3 (10_state.md R80, R81) -/

/-- The base, PCD and PWT; the other bits are ignored on a write and read 0 (R81). -/
def cr3Kept : Word32 := 0xFFFFF018

/-! ### CR4 (10_state.md R84) -/

def State.tsd (s : State) : Bool := bit s.cr4 2
def State.pse (s : State) : Bool := bit s.cr4 4
def State.mce (s : State) : Bool := bit s.cr4 6
def State.pce (s : State) : Bool := bit s.cr4 8
def State.vme (s : State) : Bool := bit s.cr4 0

/-- CR4.DE; a part without the option never has it set (42 R262). -/
def State.de (s : State) : Bool := bit s.cr4 3 && s.part.features.de

/-- The CR4 bits a part implements (10_state.md R84, R93, R94; 41 R246). -/
def cr4Mask (f : Features) : Word32 :=
  BitVec.ofNat 32
    (f.vme.toNat + 2 * f.pvi.toNat + 4 * f.tsd.toNat + 8 * f.de.toNat + 16 * f.pse.toNat + 64 * f.mce.toNat
      + 128 * f.pge.toNat + 256 * f.pce.toNat + 512 * f.osfxsr.toNat + 1024 * f.osxmmexcpt.toNat)

/-! ### DR6 and DR7 (10_state.md R98, R104) -/

/-- B0 to B3, BD, BS, BT. -/
def dr6Named : Word32 := 0x0000E00F

/-- L, G, LE, GE, GD, R/W and LEN. -/
def dr7Named : Word32 := 0xFFFF23FF

def State.gd (s : State) : Bool := bit s.dr7 13

/-- What a read of DR6 gives: the flags and the fixed pattern (D18). -/
def State.readDr6 (s : State) : Word32 := (s.part.dr6Pattern &&& ~~~ dr6Named) ||| s.dr6

/-- What a read of DR7 gives: the fields and the fixed pattern (D18). -/
def State.readDr7 (s : State) : Word32 := (s.part.dr7Pattern &&& ~~~ dr7Named) ||| s.dr7

/-! ### TR6 and TR7 (10_state.md R112, R113) -/

/-- TR6 without bits 4:1, which are drawn as 0 (D19). -/
def tr6Named : Word32 := 0xFFFFFFE1

/-- TR7 without bits 11:5 and 1:0, which are drawn as 0 (D19). -/
def tr7Named : Word32 := 0xFFFFF01C

/-! ### Modes and privilege (60_exceptions.md R374; 10_state.md R121) -/

/-- Virtual-86 Mode. -/
def State.v86 (s : State) : Bool := s.pe && s.vm

/-- Protected Mode, V86 excluded. -/
def State.prot (s : State) : Bool := s.pe && !s.vm

/-- The current privilege level: 0 in Real Mode, 3 in Virtual-86 Mode (10_state.md R121; log 9). -/
def State.cpl (s : State) : BitVec 2 := if !s.pe then 0 else if s.vm then 3 else s.cplField

/-- Level-0 rights: Real Mode, or Protected Mode at CPL 0 (60_exceptions.md R377). -/
def State.privileged (s : State) : Bool := s.cpl == 0

/-- The paging unit is on: CR0.PG has no effect without CR0.PE (20_memory.md R160). -/
def State.paging (s : State) : Bool := s.pg && s.pe

/-! ### Loading EFLAGS from an image: `Mask` of 44_task_and_coprocessor_instructions.md R302 -/

/-- CF PF AF ZF SF TF DF OF NT RF AC ID: always loaded. -/
def eflagsAlways : Word32 := 0x00254DD5

/-- Which EFLAGS bits IRET loads in this state: IF when CPL ≤ IOPL, IOPL VM VIF VIP at CPL 0; in Real Mode all but VM;
with 16-bit operand size the low half only (44 R302). -/
def State.iretMask (s : State) (o : OpSize) : Word32 :=
  let ifMask : Word32 := if !s.pe || decide (s.cpl ≤ s.iopl) then 0x00000200 else 0
  let sysMask : Word32 := if !s.pe then 0x00183000 else if s.cpl = 0 then 0x001A3000 else 0
  let all := eflagsAlways ||| ifMask ||| sysMask
  match o with
  | .s16 => all &&& 0x0000FFFF
  | .s32 => all

/-- EFLAGS after IRET pops `image`. RF ends clear unless the image, which then has 32 bits, sets it (60 R336). -/
def State.iretEflags (s : State) (o : OpSize) (image : Word32) : Word32 :=
  s.fixImage (merge (s.iretMask o) (clearRf s.eflags) image)

/-- EFLAGS after a 16-bit IRET with the virtual interrupt flag in use (60_exceptions.md R371): IF and IOPL keep their
values and VIF takes the image's IF. -/
def State.virtualIretEflags (s : State) (f : Word16) : Word32 :=
  s.fixImage (setBit (merge 0x00004DD5 (clearRf s.eflags) (zext32 f)) 19 (bit f 9))

end Sys2Proof.Machine
end

