-- ==== Sys2Proof/Machine/Memory.lean ====
section
/-! DEFINITION. Physical memory (20_memory.md R130, R136, R142, R143) and the form of a computation on the state. -/

namespace Sys2Proof.Machine

/-- What an address that memory does not list reads as (DESIGN CHOICE, unsafe: log 2). -/
def unlisted : Byte := 0

/-- The byte at address `a`. -/
def Memory.read : Memory → Nat → Byte
  | [], _ => unlisted
  | (k, v) :: m, a => if a < k then unlisted else if a = k then v else Memory.read m a

/-- Put `v` in front of `m`, unless `v` is what an unlisted address reads as. -/
def Memory.cons (a : Nat) (v : Byte) (m : Memory) : Memory := if v = unlisted then m else (a, v) :: m

/-- Memory after byte `v` is stored at address `a`. -/
def Memory.write : Memory → Nat → Byte → Memory
  | [], a, v => Memory.cons a v []
  | (k, w) :: m, a, v =>
    if a < k then Memory.cons a v ((k, w) :: m)
    else if a = k then Memory.cons a v m
    else (k, w) :: Memory.write m a v

/-- Addresses rise strictly from `lo`, lie in the 32-bit physical space (20_memory.md R130), and no entry equals what
an unlisted address reads as. -/
def Memory.wfFrom : Nat → Memory → Bool
  | _, [] => true
  | lo, (k, v) :: m => decide (lo ≤ k) && decide (k < 2 ^ 32) && decide (v ≠ unlisted) && Memory.wfFrom (k + 1) m

/-- The one canonical form of memory. -/
def Memory.wf (m : Memory) : Bool := Memory.wfFrom 0 m

/-- A computation on the state that ends with a value, or stops and changes nothing (60_exceptions.md R321: a fault is
reported before the instruction has any effect; log 7). -/
abbrev Exec (α : Type) := StateT State (Except Stop) α

/-- `raise` (00_scope.md R9). -/
def raise {α : Type} (e : Exn) : Exec α := throw (.exc e)

/-- No behaviour is claimed. -/
def refuse {α : Type} (r : Refusal) : Exec α := throw (.refused r)

/-- `raise e` when `c` holds. -/
def raiseIf (c : Bool) (e : Exn) : Exec Unit := if c then raise e else pure ()

/-- Refuse when `c` holds. -/
def refuseIf (c : Bool) (r : Refusal) : Exec Unit := if c then refuse r else pure ()

/-- Run `m` when `c` holds. -/
def onlyIf (c : Bool) (m : Exec Unit) : Exec Unit := if c then m else pure ()

/-- The number of the next free value, which is then used up (log 12). -/
def draw : Exec Nat := do
  let s ← get
  set { s with draws := s.draws + 1 }
  pure s.draws

/-- The byte at a physical address. -/
def State.physByte (s : State) (pa : Word32) : Byte := Memory.read s.mem pa.toNat

/-- `PhysRead(pa, 4)` (00_scope.md R9; 20_memory.md R136). -/
def State.phys32 (s : State) (pa : Word32) : Word32 :=
  word32 (s.physByte pa) (s.physByte (pa + 1)) (s.physByte (pa + 2)) (s.physByte (pa + 3))

/-- The `n` addresses from `a` up, modulo 2^32 (20_memory.md R130). -/
def addrsFrom (a : Word32) : Nat → List Word32
  | 0 => []
  | n + 1 => a :: addrsFrom (a + 1) n

/-- The addresses are all ordinary memory (`MEM_MAP`, 20_memory.md R142, R143). -/
def State.ram (s : State) (pas : List Word32) : Bool := pas.all fun a => s.part.kindAt a == .ram

/-- A device answers at one of the addresses (`MEM_MAP`). -/
def State.deviceAt (s : State) (pas : List Word32) : Bool := pas.any fun a => s.part.kindAt a == .device

/-- The state after a byte is stored at a physical address; only ordinary memory takes it (`MEM_MAP`; log 2). -/
def State.storeByte (s : State) (pa : Word32) (v : Byte) : State :=
  { s with mem := if s.part.kindAt pa = .ram then Memory.write s.mem pa.toNat v else s.mem }

/-- The state after bytes are stored at physical addresses, in order. -/
def State.storeBytes : State → List Word32 → List Byte → State
  | s, pa :: pas, v :: vs => (s.storeByte pa v).storeBytes pas vs
  | s, _, _ => s

/-- `PhysWrite(pa, 4, v)` (00_scope.md R9). -/
def State.store32 (s : State) (pa : Word32) (v : Word32) : State :=
  s.storeBytes (addrsFrom pa 4) (bytes32 v)

end Sys2Proof.Machine
end

