-- ==== Sys2Proof/Machine/Debug.lean ====
section
/-! DEFINITION. Breakpoint conditions and the DR6 flags (60_exceptions.md R330 to R338; 10_state.md R98 to R109). -/

namespace Sys2Proof.Machine

/-- What a breakpoint condition is compared with. -/
inductive BpAccess
  /-- An instruction whose first byte is at this linear address is about to execute. -/
  | instr (lin : Word32)
  /-- A data access of `n` bytes. -/
  | data (write : Bool) (lin : Word32) (n : Nat)
  deriving DecidableEq, Repr

/-- DR0 to DR3 by number (10_state.md R96). -/
def State.bpAddr (s : State) (n : Nat) : Word32 :=
  if n = 0 then s.dr0 else if n = 1 then s.dr1 else if n = 2 then s.dr2 else s.dr3

/-- Condition `n` is enabled: Ln or Gn (10_state.md R101). -/
def State.bpEnabled (s : State) (n : Nat) : Bool := bit s.dr7 (2 * n) || bit s.dr7 (2 * n + 1)

/-- R/Wn (10_state.md R98, R99). -/
def State.bpRw (s : State) (n : Nat) : BitVec 2 := field s.dr7 (16 + 4 * n) 2

/-- LENn (10_state.md R98, R100). -/
def State.bpLen (s : State) (n : Nat) : BitVec 2 := field s.dr7 (18 + 4 * n) 2

/-- The watched length minus one: 0, 1, 3 for LEN 00, 01, 11 (60 R331). -/
def lenMask (l : BitVec 2) : Word32 := zext32 l

/-- A data access touches the watched location: the low bits of DRn are taken as 0 and any overlapping byte counts
(60 R331). -/
def touches (dr : Word32) (l : BitVec 2) (lin : Word32) (n : Nat) : Bool :=
  let base := dr &&& ~~~ lenMask l
  decide ((lin - base).toNat ≤ (lenMask l).toNat) || decide ((base - lin).toNat < n)

/-- The fields of condition `n` leave open whether it matches this kind of access (U5, U6). -/
def State.bpOpen (s : State) (n : Nat) : BpAccess → Bool
  | .instr _ => (s.bpRw n == 0 && s.bpLen n != 0) || (s.bpRw n == 2 && !s.de)
  | .data _ _ _ => ((s.bpRw n == 1 || s.bpRw n == 3) && s.bpLen n == 2) || (s.bpRw n == 2 && !s.de)

/-- The access is of the kind R/Wn selects and touches the watched location (60 R331). I/O conditions match no access
of this spec (60 R337). -/
def State.bpMatches (s : State) (n : Nat) : BpAccess → Bool
  | .instr lin => s.bpRw n == 0 && s.bpLen n == 0 && lin == s.bpAddr n
  | .data w lin k =>
    ((s.bpRw n == 1 && w) || s.bpRw n == 3) && s.bpLen n != 2 && touches (s.bpAddr n) (s.bpLen n) lin k

/-- Condition `n` is enabled and detected; free value `k` decides where the fields leave it open (60 R332, U5, U6). -/
def State.bpHit (s : State) (k n : Nat) (a : BpAccess) : Bool :=
  s.bpEnabled n && if s.bpOpen n a then bit (Config.breakpointDraw k) n else s.bpMatches n a

/-- Condition `n` is not enabled and was met or may have been (U13). -/
def State.bpUnarmed (s : State) (n : Nat) (a : BpAccess) : Bool :=
  !s.bpEnabled n && (s.bpOpen n a || s.bpMatches n a)

def State.bpHits (s : State) (k : Nat) (a : BpAccess) : BitVec 4 :=
  bits4 (s.bpHit k 0 a) (s.bpHit k 1 a) (s.bpHit k 2 a) (s.bpHit k 3 a)

def State.bpUnarmeds (s : State) (a : BpAccess) : BitVec 4 :=
  bits4 (s.bpUnarmed 0 a) (s.bpUnarmed 1 a) (s.bpUnarmed 2 a) (s.bpUnarmed 3 a)

/-- Some enabled condition has fields that leave open whether it matches. -/
def State.bpAnyOpen (s : State) (a : BpAccess) : Bool :=
  (s.bpEnabled 0 && s.bpOpen 0 a) || (s.bpEnabled 1 && s.bpOpen 1 a) || (s.bpEnabled 2 && s.bpOpen 2 a)
    || (s.bpEnabled 3 && s.bpOpen 3 a)

/-- The state with the conditions a data access meets noted (60 R331). -/
def State.noted (s : State) (a : BpAccess) : State :=
  { s with
    pending := { s.pending with hits := s.pending.hits ||| s.bpHits s.draws a
                                disabled := s.pending.disabled ||| s.bpUnarmeds a }
    draws := if s.bpAnyOpen a then s.draws + 1 else s.draws }

/-- Note the conditions a data access of the instruction meets; they are reported after it (60 R338). -/
def noteData (write : Bool) (lin : Word32) (n : Nat) : Exec Unit := modify fun s => s.noted (.data write lin n)

/-- Bn of the conditions: 1 for the enabled ones detected, free for a disabled one that was met (60 R332, U13). -/
def State.bFlags (s : State) (hits disabled : BitVec 4) : Word32 :=
  let b := fun n => bit hits n || (bit disabled n && bit (Config.breakpointDraw s.draws) n)
  zext32 (bits4 (b 0) (b 1) (b 2) (b 3))

/-- DR6.BD (10_state.md R104). -/
def dr6Bd : Word32 := 0x2000

/-- DR6.BS (10_state.md R104). -/
def dr6Bs : Word32 := 0x4000

/-- DR6.BT (10_state.md R104). -/
def dr6Bt : Word32 := 0x8000

/-- Something is pending that raises #DB between instructions (60 R332, R353). -/
def Pending.raises (p : Pending) : Bool := p.hits != 0 || p.singleStep || p.taskSwitch

/-- The DR6 flags of the pending conditions (60 R332). -/
def State.pendingFlags (s : State) : Word32 :=
  s.bFlags s.pending.hits s.pending.disabled ||| (if s.pending.singleStep then dr6Bs else 0)
    ||| (if s.pending.taskSwitch then dr6Bt else 0)

end Sys2Proof.Machine
end

