-- ==== Sys2Proof/Machine/Paging.lean ====
section
/-! DEFINITION. From linear to physical addresses: the TLB and the page walk (20_memory.md R160 to R173). -/

namespace Sys2Proof.Machine

/-- What page-level protection needs to know of an access (20_memory.md R166). -/
structure Access where
  write : Bool
  /-- Made at CPL 3, and not by the processor on its own account. -/
  user : Bool
  deriving DecidableEq, Repr

/-- A read by the processor on its own account: descriptor tables and TSS (20_memory.md R166). -/
def Access.sysRead : Access := { write := false, user := false }

/-- A write by the processor on its own account. -/
def Access.sysWrite : Access := { write := true, user := false }

/-- The page-fault error code (20_memory.md R168). -/
def faultCode (acc : Access) (present reserved : Bool) : Word32 :=
  BitVec.ofNat 32 (present.toNat + 2 * acc.write.toNat + 4 * acc.user.toNat + 8 * reserved.toNat)

/-- Page-level protection (20_memory.md R166): a user access needs U, a user write W, a supervisor write W only with CR0.WP. -/
def State.pageAllows (s : State) (acc : Access) (u w : Bool) : Bool :=
  if acc.user then u && (!acc.write || w) else !(acc.write && s.wp) || w

/-! ### The TLB -/

/-- `TLB_INDEX`: three bits of the linear page number (42 R268; 92 section 2; log 1). -/
def tlbIndex (x : TlbIndexBits) (page : BitVec 20) : BitVec 3 :=
  BitVec.ofBool (bit page x.b2) ++ BitVec.ofBool (bit page x.b1) ++ BitVec.ofBool (bit page x.b0)

/-- Where the entry of block `b` that a page uses stands (10_state.md R111). -/
def State.tlbSlot (s : State) (b : BitVec 2) (page : BitVec 20) : Nat :=
  8 * b.toNat + (tlbIndex s.part.tlbIndex page).toNat

/-- The entry of block `b` that a page uses. -/
def State.tlbEntry (s : State) (b : BitVec 2) (page : BitVec 20) : TlbEntry := s.tlb.getD (s.tlbSlot b page) .invalid

/-- The blocks whose entry holds a valid translation of the page: the four are probed in parallel (20_memory.md R169). -/
def State.tlbHits (s : State) (page : BitVec 20) : List (BitVec 2) :=
  [0, 1, 2, 3].filter fun b => (s.tlbEntry b page).v && (s.tlbEntry b page).lin == page

/-- The TLB with one entry replaced. -/
def State.setTlb (s : State) (b : BitVec 2) (page : BitVec 20) (e : TlbEntry) : State :=
  { s with tlb := s.tlb.set (s.tlbSlot b page) e }

/-- Every entry made invalid (20_memory.md R171). -/
def State.flushTlb (s : State) : State := { s with tlb := s.tlb.map fun e => { e with v := false } }

/-- The entries from number `j` on, less those that the fill with free value `k` displaces (D11). -/
def survivors (k : Nat) : Nat → List TlbEntry → List TlbEntry
  | _, [] => []
  | j, e :: es => { e with v := e.v && Config.tlbKeeps k j } :: survivors k (j + 1) es

/-- The TLB after a walk: its translation goes to a free block of its index or is not kept, and other entries may
be displaced (20_memory.md R169, D11; log 10). -/
def fillTlb (page : BitVec 20) (e : TlbEntry) : Exec Unit := do
  let k ← draw
  modify fun s => { s with tlb := survivors k 0 s.tlb }
  match Config.tlbFill k with
  | some b => modify fun s => s.setTlb b page e
  | none => pure ()

/-! ### The page walk (20_memory.md R163 to R167) -/

/-- The address of the directory entry of a linear address (20_memory.md R162, R163). -/
def State.pdeAddr (s : State) (lin : Word32) : Word32 := (s.cr3 &&& 0xFFFFF000) + 4 * zext32 (field lin 22 10)

/-- The address of the table entry, given the directory entry. -/
def pteAddr (pde lin : Word32) : Word32 := (pde &&& 0xFFFFF000) + 4 * zext32 (field lin 12 10)

/-- The directory entry maps a 4 MB page: CR4.PSE and its PS bit (20_memory.md R165). -/
def State.maps4M (s : State) (pde : Word32) : Bool := s.pse && bit pde 7

/-- An entry with A set, and D too for a write (20_memory.md R167). -/
def markUsed (dirty : Bool) (e : Word32) : Word32 := setBit (if dirty then setBit e 6 true else e) 5 true

/-- The translation a walk finds, as the TLB holds it. It sets the accessed and dirty bits, or raises #PF
(20_memory.md R163, R166, R167, R168; 60_exceptions.md R326). A reserved bit is looked for before the rights, and its error code
has bit 0 set (log 35). -/
def walk (acc : Access) (lin : Word32) : Exec TlbEntry := do
  let s ← get
  refuseIf (s.deviceAt (addrsFrom (s.pdeAddr lin) 4)) .deviceAccess
  let pde := s.phys32 (s.pdeAddr lin)
  raiseIf (!bit pde 0) (.pf lin (faultCode acc false false))
  if s.maps4M pde then do
    raiseIf (field pde 12 10 != 0) (.pf lin (faultCode acc true true))
    raiseIf (!s.pageAllows acc (bit pde 2) (bit pde 1)) (.pf lin (faultCode acc true false))
    let pde' := markUsed acc.write pde
    set (s.store32 (s.pdeAddr lin) pde')
    pure { lin := field lin 12 20, v := true, d := bit pde' 6, u := bit pde 2, w := bit pde 1,
           phys := field pde 22 10 ++ field lin 12 10 }
  else do
    refuseIf (s.deviceAt (addrsFrom (pteAddr pde lin) 4)) .deviceAccess
    let pte := s.phys32 (pteAddr pde lin)
    raiseIf (!bit pte 0) (.pf lin (faultCode acc false false))
    let u := bit pde 2 && bit pte 2
    let w := bit pde 1 && bit pte 1
    raiseIf (!s.pageAllows acc u w) (.pf lin (faultCode acc true false))
    let s' := s.store32 (s.pdeAddr lin) (markUsed false pde)
    let pte' := markUsed acc.write (s'.phys32 (pteAddr pde lin))
    set (s'.store32 (pteAddr pde lin) pte')
    pure { lin := field lin 12 20, v := true, d := bit pte' 6, u := u, w := w, phys := field pte 12 20 }

/-- A physical address from its page and the linear address's low 12 bits. -/
def inPage (phys : BitVec 20) (lin : Word32) : Word32 := phys ++ field lin 0 12

/-- The physical address of a linear one (20_memory.md R160, R169). A write through an entry with D = 0 walks again to
set D (R167). One TLB serves instruction fetches and data accesses (log 10). -/
def translate (acc : Access) (lin : Word32) : Exec Word32 := do
  let s ← get
  let page := field lin 12 20
  if !s.paging then pure lin
  else match s.tlbHits page with
  | [] => do
    let e ← walk acc lin
    fillTlb page e
    pure (inPage e.phys lin)
  | [b] => do
    let e := s.tlbEntry b page
    raiseIf (!s.pageAllows acc e.u e.w) (.pf lin (faultCode acc true false))
    if acc.write && !e.d then do
      let e' ← walk acc lin
      modify fun s => s.setTlb b page e'
      pure (inPage e'.phys lin)
    else pure (inPage e.phys lin)
  | _ => refuse .tlbDuplicate

/-- The physical address of the byte at `lin`, where `prev` is that of the byte before it when that byte is of the access
too: one translation for each page (20_memory.md R160). -/
def nextByte (acc : Access) (prev : Option Word32) (lin : Word32) : Exec Word32 :=
  match prev with
  | some p => if field lin 0 12 = 0 then translate acc lin else pure (p + 1)
  | none => translate acc lin

/-- The physical addresses of `n` bytes from `lin`, translated in ascending order: where both pages of an access fault, the fault
reported is that of the first (20_memory.md R160 does not say which; log 42). -/
def translateFrom (acc : Access) : Nat → Option Word32 → Word32 → Exec (List Word32)
  | 0, _, _ => pure []
  | n + 1, prev, lin => do
    let pa ← nextByte acc prev lin
    let pas ← translateFrom acc n (some pa) (lin + 1)
    pure (pa :: pas)

/-- The physical addresses of `n` bytes at a linear address. An access to a device is refused (20_memory.md R142). -/
def translateRange (acc : Access) (lin : Word32) (n : Nat) : Exec (List Word32) := do
  let pas ← translateFrom acc n none lin
  let s ← get
  refuseIf (s.deviceAt pas) .deviceAccess
  pure pas

/-- The bytes at physical addresses. -/
def State.bytesAt (s : State) (pas : List Word32) : List Byte := pas.map s.physByte

/-- `MemRead(lin, n)`: the little-endian number at a linear address (00_scope.md R9). -/
def memRead (acc : Access) (lin : Word32) (n : Nat) : Exec Nat := do
  let pas ← translateRange acc lin n
  let s ← get
  pure (littleEndian (s.bytesAt pas))

/-- `MemWrite(lin, n, v)`: every byte is translated before one is stored (00_scope.md R9; 20_memory.md R160). -/
def memWrite (acc : Access) (lin : Word32) (n v : Nat) : Exec Unit := do
  let pas ← translateRange acc lin n
  modify fun s => s.storeBytes pas (toBytes n v)

/-- A read by the processor on its own account. -/
def sysRead (lin : Word32) (n : Nat) : Exec Nat := memRead .sysRead lin n

/-- A write by the processor on its own account. -/
def sysWrite (lin : Word32) (n v : Nat) : Exec Unit := memWrite .sysWrite lin n v

end Sys2Proof.Machine
end

