-- ==== Sys2Proof/Machine/Segments.lean ====
section
/-! DEFINITION. Registers by number, segment registers, descriptors, and access through a segment
(20_memory.md R138, R144 to R155; 10_state.md R42 to R54). -/

namespace Sys2Proof.Machine

/-! ### General registers (10_state.md R20) -/

def Gprs.get (g : Gprs) : Gpr → Word32
  | .eax => g.eax | .ecx => g.ecx | .edx => g.edx | .ebx => g.ebx
  | .esp => g.esp | .ebp => g.ebp | .esi => g.esi | .edi => g.edi

def Gprs.set (g : Gprs) (r : Gpr) (v : Word32) : Gprs :=
  match r with
  | .eax => { g with eax := v } | .ecx => { g with ecx := v } | .edx => { g with edx := v } | .ebx => { g with ebx := v }
  | .esp => { g with esp := v } | .ebp => { g with ebp := v } | .esi => { g with esi := v } | .edi => { g with edi := v }

/-- `x[r]` (00_scope.md R9). -/
def State.reg (s : State) (r : Gpr) : Word32 := s.gpr.get r

/-- `x16[r]` (00_scope.md R9). -/
def State.reg16 (s : State) (r : Gpr) : Word16 := low16 (s.reg r)

/-- `x[r] <- v` (00_scope.md R9). -/
def State.setReg (s : State) (r : Gpr) (v : Word32) : State := { s with gpr := s.gpr.set r v }

/-- `x16[r] <- v`: bits 31:16 stay (00_scope.md R9). -/
def State.setReg16 (s : State) (r : Gpr) (v : Word16) : State := s.setReg r (withLow16 (s.reg r) v)

/-! ### Segment registers -/

def Segs.get (g : Segs) : SegReg → SegState
  | .es => g.es | .cs => g.cs | .ss => g.ss | .ds => g.ds | .fs => g.fs | .gs => g.gs

def Segs.set (g : Segs) (r : SegReg) (v : SegState) : Segs :=
  match r with
  | .es => { g with es := v } | .cs => { g with cs := v } | .ss => { g with ss := v }
  | .ds => { g with ds := v } | .fs => { g with fs := v } | .gs => { g with gs := v }

def State.seg (s : State) (r : SegReg) : SegState := s.segs.get r

def State.setSeg (s : State) (r : SegReg) (v : SegState) : State := { s with segs := s.segs.set r v }

/-! ### Attribute bits (20_memory.md R149) -/

def SegCache.type (c : SegCache) : BitVec 4 := field c.attr 0 4
/-- S: a code or data segment. -/
def SegCache.codeOrData (c : SegCache) : Bool := bit c.attr 4
def SegCache.dpl (c : SegCache) : BitVec 2 := field c.attr 5 2
def SegCache.present (c : SegCache) : Bool := bit c.attr 7
/-- D/B. -/
def SegCache.big (c : SegCache) : Bool := bit c.attr 10
/-- G. -/
def SegCache.granular (c : SegCache) : Bool := bit c.attr 11

def SegCache.isCode (c : SegCache) : Bool := c.codeOrData && bit c.attr 3
def SegCache.isData (c : SegCache) : Bool := c.codeOrData && !bit c.attr 3
def SegCache.conforming (c : SegCache) : Bool := c.isCode && bit c.attr 2
def SegCache.readable (c : SegCache) : Bool := c.isData || (c.isCode && bit c.attr 1)
def SegCache.writable (c : SegCache) : Bool := c.isData && bit c.attr 1
def SegCache.expandDown (c : SegCache) : Bool := c.isData && bit c.attr 2

/-- The effective byte limit (20_memory.md R149). -/
def SegCache.byteLimit (c : SegCache) : Nat := if c.granular then c.limit.toNat * 4096 + 0xFFF else c.limit.toNat

/-- The contents of a cache that no selector fills: present is 0, so every use faults (20_memory.md R151; 40 R226; log 31). -/
def SegCache.empty : SegCache := { base := 0, limit := 0, attr := 0 }

/-- A segment register holding selector `sel` that names no segment (20_memory.md R151). -/
def SegState.null (sel : Word16) : SegState := { sel := sel, cache := .empty }

/-! ### Selectors (10_state.md R43) -/

def selIndex (sel : Word16) : BitVec 13 := field sel 3 13
def selTi (sel : Word16) : Bool := bit sel 2
def selRpl (sel : Word16) : BitVec 2 := field sel 0 2

/-- INDEX = 0 and TI = 0 (20_memory.md R147). -/
def selNull (sel : Word16) : Bool := field sel 2 14 == 0

/-- `sel & 0xFFFC`, the error code of a selector (60_exceptions.md R322). -/
def selCode (sel : Word16) : Word32 := zext32 (sel &&& 0xFFFC)

/-- A selector with its RPL replaced. -/
def withRpl (sel : Word16) (p : BitVec 2) : Word16 := (field sel 2 14) ++ p

/-! ### Sizes (30_encoding.md R192; 10_state.md R22) -/

/-- The default size of the code segment: 32 bits exactly in Protected Mode with CS.D = 1. -/
def State.codeSize (s : State) : OpSize := if s.prot && s.segs.cs.cache.big then .s32 else .s16

/-- An offset as EIP holds it in code of size `z`: in 16-bit code bits 31:16 are zero (10_state.md R22). -/
def codeOffset (z : OpSize) (off : Word32) : Word32 :=
  match z with
  | .s32 => off
  | .s16 => zext32 (low16 off)

/-- EIP + `n`: modulo 2^32 in 32-bit code, modulo 2^16 in 16-bit code (10_state.md R23, D2). -/
def State.eipPlus (s : State) (n : Nat) : Word32 := codeOffset s.codeSize (s.eip + BitVec.ofNat 32 n)

/-- EIP made `v`, as the code segment and the mode hold it (10_state.md R22). -/
def State.setEip (s : State) (v : Word32) : State := { s with eip := codeOffset s.codeSize v }

/-- The code size of a code segment in Protected Mode (30_encoding.md R192). -/
def SegCache.codeSize (c : SegCache) : OpSize := if c.big then .s32 else .s16

/-! ### Access through a segment register (20_memory.md R144, R152) -/

/-- `n` bytes at `off` lie inside the segment (20_memory.md R152). -/
def SegCache.inLimit (c : SegCache) (off : Word32) (n : Nat) : Bool :=
  if c.expandDown then
    decide (c.byteLimit < off.toNat) && decide (off.toNat + n - 1 ≤ if c.big then 0xFFFFFFFF else 0xFFFF)
  else decide (off.toNat + n - 1 ≤ c.byteLimit)

/-- The access is allowed in Protected Mode: present, rights, limit (20_memory.md R152). -/
def SegCache.allows (c : SegCache) (write : Bool) (off : Word32) (n : Nat) : Bool :=
  c.present && (if write then c.writable else c.readable) && c.inLimit off n

/-- The access is allowed: in Real Mode and Virtual-86 Mode only the 64 KB limit is checked (20_memory.md R144, R152). -/
def State.segAllows (s : State) (r : SegReg) (write : Bool) (off : Word32) (n : Nat) : Bool :=
  if s.prot then (s.seg r).cache.allows write off n else decide (off.toNat + n - 1 ≤ 0xFFFF)

/-- What a segment violation raises: #SS(0) through SS, else #GP(0) (20_memory.md R152). -/
def segExn (r : SegReg) : Exn := if r = .ss then .ss 0 else .gp 0

/-- The linear address of an offset in a segment (20_memory.md R144, R152). -/
def State.linear (s : State) (r : SegReg) (off : Word32) : Word32 := (s.seg r).cache.base + off

/-- The access an instruction makes at the current privilege level (20_memory.md R166). -/
def State.access (s : State) (write : Bool) : Access := { write := write, user := s.cpl == 3 }

/-- What an operand of `n` bytes must be aligned to: its own size, 4 for the 6-byte operands (20_memory.md R138, log 23). -/
def alignmentOf (n : Nat) : Nat := if n = 6 then 4 else n

/-- A data operand of `n` bytes at `lin` fails the alignment check (20_memory.md R138, `AC_RULE`). -/
def State.misaligned (s : State) (lin : Word32) (n : Nat) : Bool :=
  s.am && s.ac && s.pe && s.cpl == 3 &&
    match s.part.acRule with
    | .natural => lin.toNat % alignmentOf n != 0
    | .multipleOf4 => lin.toNat % 4 != 0

/-- Segment check, translation of every byte, and the breakpoint conditions the access meets (60_exceptions.md R353 item 10,
R331). It gives the physical addresses of the bytes. -/
def operandBytes (r : SegReg) (write : Bool) (off : Word32) (n : Nat) : Exec (List Word32) := do
  let s ← get
  raiseIf (!s.segAllows r write off n) (segExn r)
  let pas ← translateRange (s.access write) (s.linear r off) n
  noteData write (s.linear r off) n
  pure pas

/-- The alignment check of an operand of `n` bytes (20_memory.md R138; 60 R327, R353: after segment and page checks; log 8). -/
def checkAlignment (r : SegReg) (off : Word32) (n : Nat) : Exec Unit := do
  let s ← get
  raiseIf (s.misaligned (s.linear r off) n) .ac

/-- `LMemRead(seg, off, n)` (00_scope.md R9). -/
def lmemRead (r : SegReg) (off : Word32) (n : Nat) : Exec Nat := do
  let pas ← operandBytes r false off n
  checkAlignment r off n
  let s ← get
  pure (littleEndian (s.bytesAt pas))

/-- `LMemWrite(seg, off, n, v)` (00_scope.md R9). -/
def lmemWrite (r : SegReg) (off : Word32) (n v : Nat) : Exec Unit := do
  let pas ← operandBytes r true off n
  checkAlignment r off n
  modify fun s => s.storeBytes pas (toBytes n v)

/-! ### Descriptors (20_memory.md R149, R150) -/

/-- The descriptor in two double words (20_memory.md R149). -/
def descriptorOf (lo hi : Word32) : SegCache :=
  { base := field hi 24 8 ++ field hi 0 8 ++ field lo 16 16
    limit := field hi 16 4 ++ field lo 0 16
    attr := field hi 20 4 ++ field hi 8 8 }

/-- The linear address of the descriptor a selector names (20_memory.md R150). -/
def State.descriptorAddr (s : State) (sel : Word16) : Word32 :=
  (if selTi sel then s.ldtr.cache.base else s.gdtr.base) + zext32 (sel &&& 0xFFF8)

/-- The descriptor lies inside its table; no LDT is loaded when LDTR's cache is empty (20_memory.md R148, R150; 40 R226). -/
def State.inTable (s : State) (sel : Word16) : Bool :=
  if selTi sel then s.ldtr.cache.present && decide ((sel &&& 0xFFF8).toNat + 7 ≤ s.ldtr.cache.byteLimit)
  else decide ((sel &&& 0xFFF8).toNat + 7 ≤ s.gdtr.limit.toNat)

/-- Fetch the descriptor a selector names, or raise `bad` when it lies outside its table (20_memory.md R150). -/
def readDescriptor (sel : Word16) (bad : Exn) : Exec SegCache := do
  let s ← get
  raiseIf (!s.inTable sel) bad
  let v ← sysRead (s.descriptorAddr sel) 8
  pure (descriptorOf (BitVec.ofNat 32 v) (BitVec.ofNat 32 (v / 2 ^ 32)))

/-- Make bit `n` of the TYPE of the descriptor a selector names `b` in memory, in the byte at offset 5: one read-modify-write
(20_memory.md R149, R151, R159, R178). -/
def updateType (sel : Word16) (n : Nat) (b : Bool) : Exec Unit := do
  let s ← get
  let v ← sysRead (s.descriptorAddr sel + 5) 1
  sysWrite (s.descriptorAddr sel + 5) 1 (setBit (BitVec.ofNat 8 v) n b).toNat

/-- A cache with its TYPE replaced. -/
def SegCache.withType (c : SegCache) (type : BitVec 4) : SegCache := { c with attr := field c.attr 4 8 ++ type }

/-- Load a segment register from a checked descriptor: the accessed bit is set in memory if it was 0 (20_memory.md R151), and is 1 in
the cache, as if the descriptor were loaded after it is set (log 46). -/
def loadSeg (r : SegReg) (sel : Word16) (c : SegCache) : Exec Unit := do
  onlyIf (!bit c.attr 0) (updateType sel 0 true)
  modify fun s => s.setSeg r { sel := sel, cache := c.withType (setBit c.type 0 true) }

/-- Real Mode: the base is the selector times 16 (10_state.md R45). -/
def realBase (sel : Word16) : Word32 := zext32 sel <<< 4

/-- The cache of a segment register loaded in Real Mode or in Virtual-86 Mode: sixteen times the selector as base, and a limit of
64 KB, for which G is clear; the other attributes stay (10_state.md R45, R46; 44 R302; log 38). -/
def SegCache.real (c : SegCache) (sel : Word16) : SegCache :=
  { base := realBase sel, limit := 0xFFFF, attr := setBit c.attr 11 false }

/-- Load a segment register in Real Mode or in Virtual-86 Mode (10_state.md R46; 44 R301, R302; 60 R355). -/
def State.loadReal (s : State) (r : SegReg) (sel : Word16) : State :=
  s.setSeg r { sel := sel, cache := (s.seg r).cache.real sel }

end Sys2Proof.Machine
end

