-- ==== Sys2Proof/Machine/Operands.lean ====
section
/-! DEFINITION. Operands: effective addresses in both addressing modes, r/m16 operands and the 6-byte operands
(30_encoding.md R195 to R206; 20_memory.md R138, R141). -/

namespace Sys2Proof.Machine

/-! ### Effective addresses -/

/-- The sum of registers of a 16-bit address, modulo 2^16 (30_encoding.md R202). -/
def State.base16 (s : State) : Base16 → Word16
  | .bxsi => s.reg16 .ebx + s.reg16 .esi
  | .bxdi => s.reg16 .ebx + s.reg16 .edi
  | .bpsi => s.reg16 .ebp + s.reg16 .esi
  | .bpdi => s.reg16 .ebp + s.reg16 .edi
  | .si => s.reg16 .esi
  | .di => s.reg16 .edi
  | .bp => s.reg16 .ebp
  | .bx => s.reg16 .ebx

/-- The displacement a 16-bit address adds (30_encoding.md R202, R203). -/
def Disp16.value : Disp16 → Word16
  | .none => 0
  | .d8 d => sext16 d
  | .d16 d => d

/-- The displacement a 32-bit address adds (30_encoding.md R200, R203). -/
def Disp32.value : Disp32 → Word32
  | .none => 0
  | .d8 d => sext32 d
  | .d32 d => d

/-- `indexv << scale`; ESP stands for no index (30_encoding.md R201). -/
def State.scaledIndex (s : State) (scale : BitVec 2) (index : Gpr) : Word32 :=
  if index = .esp then 0 else s.reg index <<< scale.toNat

/-- The offset of a 16-bit address, zero-extended (30_encoding.md R202, R205). -/
def State.offset16 (s : State) : Addr16 → Word32
  | .direct d => zext32 d
  | .base b d => zext32 (s.base16 b + Disp16.value d)

/-- The offset of a 32-bit address, modulo 2^32 (30_encoding.md R200, R201, R205). -/
def State.offset32 (s : State) : Addr32 → Word32
  | .direct d => d
  | .base b d => s.reg b + Disp32.value d
  | .sib scale index b d => s.reg b + s.scaledIndex scale index + Disp32.value d
  | .sibNoBase scale index d => d + s.scaledIndex scale index

/-- The offset a memory operand names; a register operand names none. -/
def State.offset (s : State) : RmOp → Word32
  | .reg _ => 0
  | .mem16 a => s.offset16 a
  | .mem32 a => s.offset32 a

/-- The default segment of a 16-bit address (30_encoding.md R202). -/
def segment16 : Addr16 → SegReg
  | .base .bpsi _ => .ss
  | .base .bpdi _ => .ss
  | .base .bp _ => .ss
  | _ => .ds

/-- The default segment of a 32-bit address (30_encoding.md R200, R201). -/
def segment32 : Addr32 → SegReg
  | .base .ebp _ => .ss
  | .base .esp _ => .ss
  | .sib _ _ .ebp _ => .ss
  | .sib _ _ .esp _ => .ss
  | _ => .ds

/-- The default segment of a memory operand. -/
def defaultSegment : RmOp → SegReg
  | .reg _ => .ds
  | .mem16 a => segment16 a
  | .mem32 a => segment32 a

/-- The segment after the overrides of the prefix bytes: the last one written wins (30_encoding.md R204; log 21). -/
def overridden : SegReg → List Prefix → SegReg
  | r, [] => r
  | _, .seg q :: p => overridden q p
  | r, _ :: p => overridden r p

/-- The segment of a memory operand (30_encoding.md R204). -/
def operandSegment (p : List Prefix) (o : RmOp) : SegReg := overridden (defaultSegment o) p

/-- An operand that names a register: mod = 3. -/
def isRegister : RmOp → Bool
  | .reg _ => true
  | _ => false

/-- The effective operand size of an instruction with prefix bytes `p` (30_encoding.md R192). -/
def State.operandSize (s : State) (p : List Prefix) : OpSize := Prefix.operandSize s.codeSize p

/-! ### r/m16 -/

/-- The value of an r/m16 source (30_encoding.md R205). -/
def readRm16 (p : List Prefix) : RmOp → Exec Word16
  | .reg r => do
    let s ← get
    pure (s.reg16 r)
  | o => do
    let s ← get
    let v ← lmemRead (operandSegment p o) (s.offset o) 2
    pure (BitVec.ofNat 16 v)

/-- Store a 16-bit value in a register. With 32-bit operand size the upper half is free (U3). -/
def storeReg16 (z : OpSize) (r : Gpr) (v : Word16) : Exec Unit :=
  match z with
  | .s16 => modify fun s => s.setReg16 r v
  | .s32 => do
    let k ← draw
    modify fun s => s.setReg r (Config.upperHalf k ++ v)

/-- Store an r/m16 destination; memory always gets 2 bytes (40 R227). -/
def writeRm16 (p : List Prefix) (v : Word16) : RmOp → Exec Unit
  | .reg r => do
    let s ← get
    storeReg16 (s.operandSize p) r v
  | o => do
    let s ← get
    lmemWrite (operandSegment p o) (s.offset o) 2 v.toNat

/-! ### The 6-byte image of GDTR and IDTR (40_descriptor_table_instructions.md R220, R222, R223) -/

/-- `off + 2` modulo the address size (40 R220). -/
def secondOffset (o : RmOp) (off : Word32) : Word32 :=
  match o with
  | .mem16 _ => zext32 (low16 (off + 2))
  | _ => off + 2

/-- The physical addresses of the six bytes of a table image, limit first. Both parts are checked before anything is
read or written (40 R222); the operand is checked for alignment as one 4-byte aligned operand (20_memory.md R138). -/
def imageBytes (p : List Prefix) (o : RmOp) (write : Bool) : Exec (List Word32) := do
  let s ← get
  let lo ← operandBytes (operandSegment p o) write (s.offset o) 2
  let hi ← operandBytes (operandSegment p o) write (secondOffset o (s.offset o)) 4
  checkAlignment (operandSegment p o) (s.offset o) 6
  pure (lo ++ hi)

/-- A table register from the number its six bytes hold (40 R223). With 16-bit operand size bits 31:24 of the base
become 0 (40 R220). -/
def tableOf (z : OpSize) (v : Nat) : TableReg :=
  let base := BitVec.ofNat 32 (v / 2 ^ 16)
  { limit := BitVec.ofNat 16 v
    base := match z with
      | .s16 => base &&& 0x00FFFFFF
      | .s32 => base }

/-- The six bytes SGDT and SIDT store. With 16-bit operand size the sixth is free (U2). -/
def tableImage (z : OpSize) (k : Nat) (t : TableReg) : List Byte :=
  bytes16 t.limit ++ match z with
    | .s16 => [field t.base 0 8, field t.base 8 8, field t.base 16 8, Config.storedTopByte k]
    | .s32 => bytes32 t.base

/-- Read a table image from memory (40 R220, R224). -/
def readTable (p : List Prefix) (o : RmOp) : Exec TableReg := do
  let pas ← imageBytes p o false
  let s ← get
  pure (tableOf (s.operandSize p) (littleEndian (s.bytesAt pas)))

/-- Store a table image to memory (40 R222, R225). -/
def writeTable (p : List Prefix) (o : RmOp) (t : TableReg) : Exec Unit := do
  let pas ← imageBytes p o true
  let k ← draw
  modify fun s => s.storeBytes pas (tableImage (s.operandSize p) k t)

/-- The far pointer a memory operand of CALL holds: offset first, selector after it (44 R301). -/
def readFar (p : List Prefix) (o : RmOp) : Exec (Word32 × Word16) := do
  let s ← get
  match s.operandSize p with
  | .s16 => do
    let v ← lmemRead (operandSegment p o) (s.offset o) 4
    pure (zext32 (BitVec.ofNat 16 v), BitVec.ofNat 16 (v / 2 ^ 16))
  | .s32 => do
    let v ← lmemRead (operandSegment p o) (s.offset o) 6
    pure (BitVec.ofNat 32 v, BitVec.ofNat 16 (v / 2 ^ 32))

end Sys2Proof.Machine
end

