-- ==== Sys2Proof/Machine/Tasks.lean ====
section
/-! DEFINITION. The task state segment and the task switch (20_memory.md R156 to R159; 44 R300, R303, R304). The order of
the steps and the checks are the model's where the spec leaves them open (log 18), and so is the layout of a 16-bit TSS (log 45). -/

namespace Sys2Proof.Machine

/-- Who asks for a task switch (20_memory.md R159). -/
inductive SwitchKind
  | call
  | event
  | iret
  deriving DecidableEq, Repr

/-- The back link is written and NT set: CALL, interrupt and exception (44 R303). -/
def SwitchKind.nests : SwitchKind → Bool
  | .call => true
  | .event => true
  | .iret => false

/-- TYPE of an available and of a busy 32-bit TSS (20_memory.md R149). -/
def tss32Type (busy : Bool) : BitVec 4 := if busy then 0xB else 0x9

/-- TYPE of an available and of a busy 16-bit TSS (20_memory.md R149). -/
def tss16Type (busy : Bool) : BitVec 4 := if busy then 0x3 else 0x1

/-- A system descriptor of one type (20_memory.md R149). -/
def SegCache.isSystem (c : SegCache) (type : BitVec 4) : Bool := !c.codeOrData && c.type == type

/-- Either 16-bit TSS type. -/
def SegCache.isTss16 (c : SegCache) : Bool := c.isSystem (tss16Type false) || c.isSystem (tss16Type true)

/-- A TSS of either size, busy or available (20_memory.md R149; 40 R228). -/
def SegCache.isTss (c : SegCache) (busy : Bool) : Bool := c.isSystem (tss32Type busy) || c.isSystem (tss16Type busy)

/-- The smallest valid limit of a TSS (20_memory.md R157; of a 16-bit one: log 45). -/
def SegCache.tssLimit (c : SegCache) : Nat := if c.isTss16 then 0x2B else 0x67

/-- The context a TSS holds (20_memory.md R157). -/
structure TaskContext where
  cr3 : Word32
  eip : Word32
  eflags : Word32
  gpr : Gprs
  es : Word16
  cs : Word16
  ss : Word16
  ds : Word16
  fs : Word16
  gs : Word16
  ldt : Word16
  /-- The T bit (20_memory.md R158). -/
  t : Bool
  deriving DecidableEq, Repr

/-- A 32-bit field of a TSS. -/
def tss32 (base off : Word32) : Exec Word32 := do
  let v ← sysRead (base + off) 4
  pure (BitVec.ofNat 32 v)

/-- A 16-bit field of a TSS. -/
def tss16 (base off : Word32) : Exec Word16 := do
  let v ← sysRead (base + off) 2
  pure (BitVec.ofNat 16 v)

/-- The general registers a 32-bit TSS holds (20_memory.md R157). -/
def readTssGprs32 (base : Word32) : Exec Gprs := do
  let eax ← tss32 base 0x28
  let ecx ← tss32 base 0x2C
  let edx ← tss32 base 0x30
  let ebx ← tss32 base 0x34
  let esp ← tss32 base 0x38
  let ebp ← tss32 base 0x3C
  let esi ← tss32 base 0x40
  let edi ← tss32 base 0x44
  pure { eax := eax, ecx := ecx, edx := edx, ebx := ebx, esp := esp, ebp := ebp, esi := esi, edi := edi }

/-- The general registers of which a 16-bit TSS holds the low halves; the upper halves are free (log 45). -/
def readTssGprs16 (base : Word32) : Exec Gprs := do
  let k ← draw
  let ax ← tss16 base 0x12
  let cx ← tss16 base 0x14
  let dx ← tss16 base 0x16
  let bx ← tss16 base 0x18
  let sp ← tss16 base 0x1A
  let bp ← tss16 base 0x1C
  let si ← tss16 base 0x1E
  let di ← tss16 base 0x20
  pure { eax := Config.tssUpper k 0 ++ ax, ecx := Config.tssUpper k 1 ++ cx, edx := Config.tssUpper k 2 ++ dx
         ebx := Config.tssUpper k 3 ++ bx, esp := Config.tssUpper k 4 ++ sp, ebp := Config.tssUpper k 5 ++ bp
         esi := Config.tssUpper k 6 ++ si, edi := Config.tssUpper k 7 ++ di }

/-- The whole context a 16-bit TSS holds: no CR3, which stays, no FS and GS, which become null, no T bit, and 16 bits of EIP and
EFLAGS (log 45). -/
def readContext16 (base : Word32) : Exec TaskContext := do
  let s ← get
  let ip ← tss16 base 0x0E
  let fl ← tss16 base 0x10
  let gpr ← readTssGprs16 base
  let es ← tss16 base 0x22
  let cs ← tss16 base 0x24
  let ss ← tss16 base 0x26
  let ds ← tss16 base 0x28
  let ldt ← tss16 base 0x2A
  pure { cr3 := s.cr3, eip := zext32 ip, eflags := zext32 fl, gpr := gpr, es := es, cs := cs, ss := ss, ds := ds, fs := 0, gs := 0,
         ldt := ldt, t := false }

/-- The whole context a 32-bit TSS holds (20_memory.md R157). -/
def readContext32 (base : Word32) : Exec TaskContext := do
  let s ← get
  let cr3 ← tss32 base 0x1C
  let eip ← tss32 base 0x20
  let eflags ← tss32 base 0x24
  let gpr ← readTssGprs32 base
  let es ← tss16 base 0x48
  let cs ← tss16 base 0x4C
  let ss ← tss16 base 0x50
  let ds ← tss16 base 0x54
  let fs ← tss16 base 0x58
  let gs ← tss16 base 0x5C
  let ldt ← tss16 base 0x60
  let tb ← sysRead (base + s.part.tssTByte) 1
  pure { cr3 := cr3, eip := eip, eflags := eflags, gpr := gpr, es := es, cs := cs, ss := ss, ds := ds, fs := fs, gs := gs,
         ldt := ldt, t := tb.testBit s.part.tssTBit.toNat }

/-- The context that the TSS of descriptor `d` holds (20_memory.md R157). -/
def readContext (d : SegCache) : Exec TaskContext := if d.isTss16 then readContext16 d.base else readContext32 d.base

/-- Store the outgoing context in a 16-bit TSS: the low halves (log 45). -/
def saveContext16 (base eip eflags : Word32) : Exec Unit := do
  let s ← get
  sysWrite (base + 0x0E) 2 (low16 eip).toNat
  sysWrite (base + 0x10) 2 (low16 eflags).toNat
  sysWrite (base + 0x12) 2 (low16 s.gpr.eax).toNat
  sysWrite (base + 0x14) 2 (low16 s.gpr.ecx).toNat
  sysWrite (base + 0x16) 2 (low16 s.gpr.edx).toNat
  sysWrite (base + 0x18) 2 (low16 s.gpr.ebx).toNat
  sysWrite (base + 0x1A) 2 (low16 s.gpr.esp).toNat
  sysWrite (base + 0x1C) 2 (low16 s.gpr.ebp).toNat
  sysWrite (base + 0x1E) 2 (low16 s.gpr.esi).toNat
  sysWrite (base + 0x20) 2 (low16 s.gpr.edi).toNat
  sysWrite (base + 0x22) 2 s.segs.es.sel.toNat
  sysWrite (base + 0x24) 2 s.segs.cs.sel.toNat
  sysWrite (base + 0x26) 2 s.segs.ss.sel.toNat
  sysWrite (base + 0x28) 2 s.segs.ds.sel.toNat

/-- Store the outgoing context in a 32-bit TSS (20_memory.md R157, R159): EIP, EFLAGS, the general registers, the selectors. -/
def saveContext32 (base eip eflags : Word32) : Exec Unit := do
  let s ← get
  sysWrite (base + 0x20) 4 eip.toNat
  sysWrite (base + 0x24) 4 eflags.toNat
  sysWrite (base + 0x28) 4 s.gpr.eax.toNat
  sysWrite (base + 0x2C) 4 s.gpr.ecx.toNat
  sysWrite (base + 0x30) 4 s.gpr.edx.toNat
  sysWrite (base + 0x34) 4 s.gpr.ebx.toNat
  sysWrite (base + 0x38) 4 s.gpr.esp.toNat
  sysWrite (base + 0x3C) 4 s.gpr.ebp.toNat
  sysWrite (base + 0x40) 4 s.gpr.esi.toNat
  sysWrite (base + 0x44) 4 s.gpr.edi.toNat
  sysWrite (base + 0x48) 2 s.segs.es.sel.toNat
  sysWrite (base + 0x4C) 2 s.segs.cs.sel.toNat
  sysWrite (base + 0x50) 2 s.segs.ss.sel.toNat
  sysWrite (base + 0x54) 2 s.segs.ds.sel.toNat
  sysWrite (base + 0x58) 2 s.segs.fs.sel.toNat
  sysWrite (base + 0x5C) 2 s.segs.gs.sel.toNat

/-- Store the outgoing context in the TSS of descriptor `c` (20_memory.md R159). -/
def saveContext (c : SegCache) (eip eflags : Word32) : Exec Unit :=
  if c.isTss16 then saveContext16 c.base eip eflags else saveContext32 c.base eip eflags

/-- Make the TSS descriptor a selector names busy or available in memory (20_memory.md R159; 40 R228). No selector is checked here, and
the old selector of TR, which IRET makes available, nowhere: the byte is written wherever it points (log 47). -/
def markBusy (sel : Word16) (busy : Bool) : Exec Unit := updateType sel 1 busy

/-- The descriptor of the TSS a selector names, which must be in the GDT, of a TSS type that is `busy` or available, and
present. What is wrong with the selector or the type raises `bad` (44 R301, R302; 60 R328). `ext` is the EXT bit of #NP's code
(60 R322). A TSS of either size will do, as in 40 R228 (log 45). -/
def findTss (sel : Word16) (busy : Bool) (bad : Exn) (ext : Word32) : Exec SegCache := do
  raiseIf (selTi sel || selNull sel) bad
  let d ← readDescriptor sel bad
  raiseIf (!d.isTss busy) bad
  raiseIf (!d.present) (.np (selCode sel + ext))
  pure d

/-! ### Loading the incoming context -/

/-- The LDTR of the incoming task: null, or a present LDT descriptor of the GDT (20_memory.md R159; 40 R226). -/
def loadTaskLdt (sel : Word16) : Exec Unit := do
  if selNull sel then modify fun s => { s with ldtr := .null sel }
  else do
    raiseIf (selTi sel) (.ts (selCode sel))
    let d ← readDescriptor sel (.ts (selCode sel))
    raiseIf (!d.isSystem 2 || !d.present) (.ts (selCode sel))
    modify fun s => { s with ldtr := { sel := sel, cache := d } }

/-- The code segment checks common to the incoming task and to IRET, less presence: a code segment whose DPL fits the
selector's RPL (log 19). -/
def codeFits (d : SegCache) (rpl : BitVec 2) : Bool :=
  d.isCode && if d.conforming then decide (d.dpl ≤ rpl) else d.dpl == rpl

/-- A stack segment for level `n`: writable data with DPL and RPL `n` (log 19). -/
def stackFits (d : SegCache) (sel : Word16) (n : BitVec 2) : Bool :=
  d.writable && d.dpl == n && selRpl sel == n

/-- A data segment usable at level `n` with the selector's RPL: `max(CPL, RPL) ≤ DPL` (20_memory.md R151). That a readable conforming
code segment is usable whatever its DPL, and a readable code segment at all, is the model's (log 19). -/
def dataFits (d : SegCache) (sel : Word16) (n : BitVec 2) : Bool :=
  d.readable && (d.conforming || (decide (n ≤ d.dpl) && decide (selRpl sel ≤ d.dpl)))

/-- CS of the incoming task; its RPL is the new privilege level. -/
def loadTaskCode (sel : Word16) : Exec Unit := do
  raiseIf (selNull sel) (.ts (selCode sel))
  let d ← readDescriptor sel (.ts (selCode sel))
  raiseIf (!codeFits d (selRpl sel)) (.ts (selCode sel))
  raiseIf (!d.present) (.np (selCode sel))
  modify fun s => { s with cplField := selRpl sel }
  loadSeg .cs sel d

/-- SS of the incoming task. -/
def loadTaskStack (sel : Word16) : Exec Unit := do
  raiseIf (selNull sel) (.ts (selCode sel))
  let d ← readDescriptor sel (.ts (selCode sel))
  let s ← get
  raiseIf (!stackFits d sel s.cpl) (.ts (selCode sel))
  raiseIf (!d.present) (.ss (selCode sel))
  loadSeg .ss sel d

/-- A data segment register of the incoming task. -/
def loadTaskData (r : SegReg) (sel : Word16) : Exec Unit := do
  if selNull sel then modify fun s => s.setSeg r (.null sel)
  else do
    let d ← readDescriptor sel (.ts (selCode sel))
    let s ← get
    raiseIf (!dataFits d sel s.cpl) (.ts (selCode sel))
    raiseIf (!d.present) (.np (selCode sel))
    loadSeg r sel d

/-- The six segment registers in Virtual-86 Mode (44 R302, R304). -/
def State.loadV86All (s : State) (es cs ss ds fs gs : Word16) : State :=
  { (((((s.loadReal .es es).loadReal .cs cs).loadReal .ss ss).loadReal .ds ds).loadReal .fs fs).loadReal .gs gs with cplField := 3 }

/-- The segment registers of the incoming task, by its VM flag (44 R304). -/
def loadTaskSegments (c : TaskContext) : Exec Unit := do
  let s ← get
  if s.vm then set (s.loadV86All c.es c.cs c.ss c.ds c.fs c.gs)
  else do
    loadTaskCode c.cs
    loadTaskStack c.ss
    loadTaskData .ds c.ds
    loadTaskData .es c.es
    loadTaskData .fs c.fs
    loadTaskData .gs c.gs

/-- L0 to L3 of DR7, which a task switch clears (10_state.md R101). -/
def dr7Local : Word32 := 0x00000055

/-- The registers a task switch replaces at once: CR3 with an emptied TLB, EIP, EFLAGS, the general registers, CR0.TS, the
local breakpoint enables, and the debug trap of the incoming task (20_memory.md R159; 44 R303). -/
def State.enterTask (s : State) (kind : SwitchKind) (c : TaskContext) : State :=
  { s.flushTlb with
    cr3 := c.cr3 &&& cr3Kept
    eip := c.eip
    eflags := if kind.nests then setBit (s.fixImage c.eflags) 14 true else s.fixImage c.eflags
    gpr := c.gpr
    cr0 := setBit s.cr0 3 true
    dr7 := s.dr7 &&& ~~~ dr7Local
    pending := { s.pending with taskSwitch := c.t } }

/-- A fault in the middle of a switch is refused (20_memory.md R159: "a model refuses that case"; U17). -/
def refuseFaults {α : Type} (m : Exec α) : Exec α := fun s =>
  match m s with
  | .error (.exc _) => .error (.refused .taskSwitchFault)
  | r => r

/-- The part of a task switch that has begun to change state (20_memory.md R159). CALL and events make the incoming TSS
busy, IRET the outgoing one available, which is the descriptor that the old selector of TR names, whatever it is (log 47). -/
def switchBody (sel : Word16) (d : SegCache) (kind : SwitchKind) (eip eflags : Word32) : Exec Unit := do
  let s ← get
  saveContext s.tr.cache eip eflags
  markBusy (if kind.nests then sel else s.tr.sel) kind.nests
  let c ← readContext d
  onlyIf kind.nests (sysWrite d.base 2 s.tr.sel.toNat)
  modify fun s => ({ s with tr := { sel := sel, cache := d.withType (setBit d.type 1 true) } } : State).enterTask kind c
  loadTaskLdt c.ldt
  loadTaskSegments c
  modify fun s => s.setEip s.eip

/-- `TaskSwitch(sel, kind)` to the TSS of descriptor `d` (20_memory.md R159). `eip` and `eflags` are the images saved in
the outgoing TSS, `ext` the EXT bit of #TS's code (60 R322). A TSS with a limit below 67h, or 2Bh if it is a 16-bit one, is
invalid (R157; log 45). -/
def taskSwitch (sel : Word16) (d : SegCache) (kind : SwitchKind) (eip eflags ext : Word32) : Exec Unit := do
  let s ← get
  raiseIf (decide (d.byteLimit < d.tssLimit)) (.ts (selCode sel + ext))
  raiseIf (decide (s.tr.cache.byteLimit < s.tr.cache.tssLimit)) (.ts (selCode s.tr.sel + ext))
  refuseFaults (switchBody sel d kind eip eflags)

end Sys2Proof.Machine
end

