-- ==== Sys2Proof/Machine/Ops.lean ====
section
/-! DEFINITION. The operations instructions share: the stack, taking an exception (60_exceptions.md R320 to R363), the
return from one (44 R302), far transfer in Real Mode, and how an instruction begins and ends. -/

namespace Sys2Proof.Machine

/-! ### The stack -/

/-- The size of the stack pointer: ESP exactly in Protected Mode with the B bit of SS, else SP (20_memory.md R149, R144). -/
def State.stackSize (s : State) : OpSize := if s.prot && s.segs.ss.cache.big then .s32 else .s16

/-- An offset as the stack pointer's size holds it. -/
def State.stackWrap (s : State) (off : Word32) : Word32 :=
  match s.stackSize with
  | .s32 => off
  | .s16 => zext32 (low16 off)

/-- The offset of the top of the stack. -/
def State.stackTop (s : State) : Word32 := s.stackWrap s.gpr.esp

/-- Make `off` the top of the stack; with a 16-bit stack pointer bits 31:16 of ESP stay. -/
def State.setStackTop (s : State) (off : Word32) : State :=
  match s.stackSize with
  | .s32 => s.setReg .esp off
  | .s16 => s.setReg16 .esp (low16 off)

/-- Bytes of a push or pop. -/
def slotBytes : OpSize → Nat
  | .s16 => 2
  | .s32 => 4

/-- The offset a push of size `z` stores at. -/
def State.pushOffset (s : State) (z : OpSize) : Word32 := s.stackWrap (s.gpr.esp - BitVec.ofNat 32 (slotBytes z))

/-- A push an instruction makes: a data operand of its own (44 R301). -/
def push (z : OpSize) (v : Word32) : Exec Unit := do
  let s ← get
  lmemWrite .ss (s.pushOffset z) (slotBytes z) v.toNat
  modify fun t => t.setStackTop (s.pushOffset z)

/-- A pop an instruction makes: a data operand of its own; 16-bit pops are zero-extended (44 R302). -/
def pop (z : OpSize) : Exec Word32 := do
  let s ← get
  let v ← lmemRead .ss s.stackTop (slotBytes z)
  modify fun t => t.setStackTop (s.stackWrap (s.stackTop + BitVec.ofNat 32 (slotBytes z)))
  pure (BitVec.ofNat 32 v)

/-- A push the processor makes when it delivers an event: segment and page checks, neither alignment check nor
breakpoint (60 R354, R328, R331; log 14). -/
def pushFrame (z : OpSize) (v : Word32) : Exec Unit := do
  let s ← get
  raiseIf (!s.segAllows .ss true (s.pushOffset z) (slotBytes z)) (.ss 0)
  memWrite (s.access true) (s.linear .ss (s.pushOffset z)) (slotBytes z) v.toNat
  modify fun t => t.setStackTop (s.pushOffset z)

/-! ### Events (60_exceptions.md R320 to R322) -/

/-- What delivery needs to know (60 R354). -/
structure Event where
  vector : Byte
  /-- The error code of the vectors that have one (R320). -/
  code : Option Word32
  /-- The saved EIP (R321). -/
  eip : Word32
  /-- RF in the saved EFLAGS image (R336). -/
  rf : Bool
  /-- Raised by INT3 (R354). -/
  software : Bool
  /-- Came from outside the program (R322, R354). -/
  external : Bool
  deriving DecidableEq, Repr

/-- The vector of an exception (60 R320). -/
def Exn.vector : Exn → Byte
  | .db _ _ => 1 | .ud => 6 | .nm => 7 | .df => 8 | .ts _ => 10 | .np _ => 11 | .ss _ => 12 | .gp _ => 13 | .pf _ _ => 14
  | .mf => 16 | .ac => 17

/-- The error code of an exception (60 R320, R322, R327, R363). -/
def Exn.code : Exn → Option Word32
  | .db _ _ => none | .ud => none | .nm => none | .df => some 0
  | .ts c => some c | .np c => some c | .ss c => some c | .gp c => some c | .pf _ c => some c
  | .mf => none | .ac => some 0

/-- RF in the saved image: 1 for a fault, but for an instruction breakpoint, and the abort #DF, the current RF (60 R336). -/
def Exn.savedRf (s : State) : Exn → Bool
  | .db _ atInstr => if atInstr then s.rf else true
  | .df => s.rf
  | _ => true

/-- The event of an exception that the instruction at EIP raises: the saved EIP is that instruction's (60 R321). -/
def Exn.event (s : State) (e : Exn) : Event :=
  { vector := e.vector, code := e.code, eip := s.eip, rf := e.savedRf s, software := false, external := false }

/-- What raising an exception writes before the handler is entered: CR2 (60 R326), the DR6 flags (60 R332). -/
def State.raised (s : State) : Exn → State
  | .pf lin _ => { s with cr2 := lin }
  | .db flags _ => { s with dr6 := s.dr6 ||| (flags &&& dr6Named), draws := s.draws + 1 }
  | _ => s

/-- The classes that decide on a double fault (60 R363). -/
inductive FaultClass
  | benign
  | contributory
  | page
  /-- The double fault itself. -/
  | double
  deriving DecidableEq, Repr

def Exn.faultClass : Exn → FaultClass
  | .df => .double
  | .ts _ => .contributory | .np _ => .contributory | .ss _ => .contributory | .gp _ => .contributory
  | .pf _ _ => .page
  | _ => .benign

/-- An exception raised while one of the first class is delivered makes a double fault (60 R363). -/
def doubleFaults : FaultClass → FaultClass → Bool
  | .contributory, .contributory => true
  | .page, .contributory => true
  | .page, .page => true
  | _, _ => false

/-! ### Gates (60_exceptions.md R357) -/

/-- An IDT entry in Protected Mode. -/
structure Gate where
  sel : Word16
  offset : Word32
  /-- P, DPL, 0, type: byte 5. -/
  access : Byte
  deriving DecidableEq, Repr

/-- The gate in two double words. -/
def gateOf (lo hi : Word32) : Gate :=
  { sel := field lo 16 16, offset := field hi 16 16 ++ field lo 0 16, access := field hi 8 8 }

def Gate.type (g : Gate) : BitVec 4 := field g.access 0 4
def Gate.dpl (g : Gate) : BitVec 2 := field g.access 5 2
def Gate.present (g : Gate) : Bool := bit g.access 7
def Gate.isTask (g : Gate) : Bool := g.type == 5

/-- Task gate, interrupt gate or trap gate. -/
def Gate.valid (g : Gate) : Bool :=
  !bit g.access 4 && (g.type == 5 || g.type == 6 || g.type == 7 || g.type == 0xE || g.type == 0xF)

/-- The size of the frame: 32 bits through a 32-bit gate. -/
def Gate.size (g : Gate) : OpSize := if bit g.type 3 then .s32 else .s16

/-- An interrupt gate clears IF, a trap gate does not. -/
def Gate.clearsIf (g : Gate) : Bool := !bit g.type 0

/-! ### Delivery in Protected Mode and Virtual-86 Mode (60_exceptions.md R354, R356, R359 to R361) -/

/-- The EXT bit of an error code raised during delivery (60 R322, R354). -/
def Event.ext (ev : Event) : Word32 := if ev.external then 1 else 0

/-- The error code that names the event's IDT entry (60 R322, R354). -/
def Event.idtCode (ev : Event) : Word32 := zext32 ev.vector * 8 + 2 + ev.ext

/-- The EFLAGS image an event saves (60 R336). -/
def Event.image (ev : Event) (s : State) : Word32 := setBit s.eflags 16 ev.rf

/-- EFLAGS after entry: TF, NT, VM, RF cleared, and IF when asked (60 R361). -/
def entryFlags (fl : Word32) (clearIf : Bool) : Word32 :=
  let v := setBit (setBit (setBit (setBit fl 8 false) 14 false) 17 false) 16 false
  if clearIf then setBit v 9 false else v

/-- A transfer of control within the code segment just loaded: EFLAGS, then EIP as the code size holds it (10_state.md R22). -/
def State.jumpTo (s : State) (eip fl : Word32) : State := ({ s with eflags := fl } : State).setEip eip

/-- Entering the #DB handler clears DR7.GD (60 R333). -/
def State.enterHandler (s : State) (ev : Event) : State :=
  if ev.vector = 1 then { s with dr7 := setBit s.dr7 13 false } else s

/-- The stack for level `n` of a current 16-bit TSS (log 45). The TSS must reach that far (log 19). -/
def innerStack16 (n : BitVec 2) (ext : Word32) : Exec (Word16 × Word32) := do
  let s ← get
  raiseIf (decide (s.tr.cache.byteLimit < 4 * n.toNat + 5)) (.ts (selCode s.tr.sel + ext))
  let sp ← tss16 s.tr.cache.base (BitVec.ofNat 32 (4 * n.toNat + 2))
  let ss ← tss16 s.tr.cache.base (BitVec.ofNat 32 (4 * n.toNat + 4))
  pure (ss, zext32 sp)

/-- The stack for level `n` of a current 32-bit TSS (60 R354, 20_memory.md R157). The TSS must reach that far (log 19). -/
def innerStack32 (n : BitVec 2) (ext : Word32) : Exec (Word16 × Word32) := do
  let s ← get
  raiseIf (decide (s.tr.cache.byteLimit < 8 * n.toNat + 9)) (.ts (selCode s.tr.sel + ext))
  let esp ← tss32 s.tr.cache.base (BitVec.ofNat 32 (8 * n.toNat + 4))
  let ss ← tss16 s.tr.cache.base (BitVec.ofNat 32 (8 * n.toNat + 8))
  pure (ss, esp)

/-- The stack for level `n` of the current TSS (60 R354). -/
def innerStack (n : BitVec 2) (ext : Word32) : Exec (Word16 × Word32) := do
  let s ← get
  if s.tr.cache.isTss16 then innerStack16 n ext else innerStack32 n ext

/-- The checked descriptor of an inner stack: the rules of a load of SS (20_memory.md R150, R151; log 19). -/
def innerStackSegment (sel : Word16) (n : BitVec 2) (ext : Word32) : Exec SegCache := do
  raiseIf (selNull sel) (.gp (selCode sel + ext))
  let d ← readDescriptor sel (.gp (selCode sel + ext))
  raiseIf (!stackFits d sel n) (.gp (selCode sel + ext))
  raiseIf (!d.present) (.ss (selCode sel + ext))
  pure d

/-- The processor at level `n`, out of Virtual-86 Mode (60 R354, R359, R361). -/
def State.atLevel (s : State) (n : BitVec 2) : State := { s with cplField := n, eflags := setBit s.eflags 17 false }

/-- The four data segment registers null (60 R359). -/
def nullData (g : Segs) : Segs := { g with gs := .null 0, fs := .null 0, ds := .null 0, es := .null 0 }

/-- The four data segment registers that entry from Virtual-86 Mode saves and nulls (60 R359). -/
def pushV86Data (z : OpSize) (old : Segs) : Exec Unit := do
  pushFrame z (zext32 old.gs.sel)
  pushFrame z (zext32 old.fs.sel)
  pushFrame z (zext32 old.ds.sel)
  pushFrame z (zext32 old.es.sel)
  modify fun s => { s with segs := nullData s.segs }

/-- Change to the stack of level `n` and save the outer one there (60 R354, R359). The level and VM change before the first push, so
that every push is an access of the inner level in Protected Mode (log 44). -/
def enterInner (z : OpSize) (n : BitVec 2) (ext : Word32) : Exec Unit := do
  let s ← get
  let (ss, esp) ← innerStack n ext
  let d ← innerStackSegment ss n ext
  modify fun t => t.atLevel n
  loadSeg .ss ss d
  modify fun t => t.setReg .esp esp
  onlyIf s.v86 (pushV86Data z s.segs)
  pushFrame z (zext32 s.segs.ss.sel)
  pushFrame z s.gpr.esp

/-- Push the error code, if the event has one. -/
def pushCode (z : OpSize) : Option Word32 → Exec Unit
  | none => pure ()
  | some c => pushFrame z c

/-- The handler's code segment: a present code segment (60 R354), of level 0 for an event in Virtual-86 Mode (60 R359). The type is
checked first, presence last (log 20). -/
def handlerCode (sel : Word16) (ext : Word32) : Exec SegCache := do
  let s ← get
  raiseIf (selNull sel) (.gp ext)
  let d ← readDescriptor sel (.gp (selCode sel + ext))
  raiseIf (!d.isCode) (.gp (selCode sel + ext))
  raiseIf (s.v86 && d.dpl != 0) (.gp (selCode sel + ext))
  raiseIf (!d.present) (.np (selCode sel + ext))
  pure d

/-- Entry goes to a more privileged level, always so from Virtual-86 Mode (60 R354, R359; log 20). -/
def State.entersInner (s : State) (d : SegCache) : Bool := s.v86 || (!d.conforming && decide (d.dpl < s.cpl))

/-- Delivery through an interrupt or trap gate (60 R354). -/
def deliverGate (ev : Event) (g : Gate) : Exec Unit := do
  let s ← get
  let d ← handlerCode g.sel ev.ext
  onlyIf (s.entersInner d) (enterInner g.size d.dpl ev.ext)
  pushFrame g.size (ev.image s)
  pushFrame g.size (zext32 s.segs.cs.sel)
  pushFrame g.size ev.eip
  pushCode g.size ev.code
  let t ← get
  loadSeg .cs (withRpl g.sel t.cpl) d
  modify fun t => (t.jumpTo g.offset (entryFlags t.eflags g.clearsIf)).enterHandler ev

/-- Delivery through a task gate (60 R360). A gate whose selector names no available TSS of the GDT raises #GP, as in 44 R301, and one
whose TSS is not present #NP (log 41). -/
def deliverTask (ev : Event) (g : Gate) : Exec Unit := do
  let s ← get
  let d ← findTss g.sel false (.gp (selCode g.sel + ev.ext)) ev.ext
  taskSwitch g.sel d .event ev.eip (ev.image s) ev.ext
  modify fun t => t.enterHandler ev

/-- Delivery with CR0.PE = 1 (60 R354). The answer is the error code that is still to be pushed: on the new task's stack, after
the switch through a task gate (R360). -/
def deliverProtected (ev : Event) : Exec (Option Word32) := do
  let s ← get
  raiseIf (decide (s.idtr.limit.toNat < ev.vector.toNat * 8 + 7)) (.gp ev.idtCode)
  let v ← sysRead (s.idtr.base + zext32 ev.vector * 8) 8
  let g := gateOf (BitVec.ofNat 32 v) (BitVec.ofNat 32 (v / 2 ^ 32))
  raiseIf (!g.valid) (.gp ev.idtCode)
  raiseIf (ev.software && decide (g.dpl < s.cpl)) (.gp ev.idtCode)
  raiseIf (!g.present) (.np ev.idtCode)
  if g.isTask then do
    deliverTask ev g
    pure ev.code
  else do
    deliverGate ev g
    pure none

/-- EFLAGS after entry in Real Mode: AC cleared too (60 R355; log 30). -/
def realEntryFlags (fl : Word32) : Word32 := setBit (entryFlags fl true) 18 false

/-- Delivery in Real Mode (60 R355, R358). -/
def deliverReal (ev : Event) : Exec Unit := do
  let s ← get
  raiseIf (decide (s.idtr.limit.toNat < ev.vector.toNat * 4 + 3)) (.gp 0)
  let v ← sysRead (s.idtr.base + zext32 ev.vector * 4) 4
  pushFrame .s16 s.eflags
  pushFrame .s16 (zext32 s.segs.cs.sel)
  pushFrame .s16 ev.eip
  modify fun t =>
    ((t.loadReal .cs (BitVec.ofNat 16 (v / 2 ^ 16))).jumpTo (zext32 (BitVec.ofNat 16 v)) (realEntryFlags t.eflags)).enterHandler ev

/-- One attempt to deliver an event, and the error code still to be pushed. -/
def deliver (ev : Event) : Exec (Option Word32) := do
  let s ← get
  if s.pe then deliverProtected ev
  else do
    deliverReal ev
    pure none

/-! ### Taking an exception (60_exceptions.md R354, R355, R363) -/

/-- How an attempt to deliver an event ends. -/
inductive Attempt
  | done (t : State)
  /-- An exception on the way, in the state it strikes. -/
  | faulted (e : Exn) (t : State)
  | refused (r : Refusal)
  deriving DecidableEq, Repr

/-- Deliver an event, and push the error code that a task gate leaves on the new task's stack, 32 bits (60 R322, R360). -/
def attempt (ev : Event) (s : State) : Attempt :=
  match (deliver ev).run s with
  | .error (.exc e) => .faulted e s
  | .error (.refused r) => .refused r
  | .ok (code, t) =>
    match (pushCode .s32 code).run t with
    | .ok (_, u) => .done u
    | .error (.exc e) => .faulted e t
    | .error (.refused r) => .refused r

/-- Shut down (60 R363). -/
def State.shutDown (s : State) : State := { s with activity := .shutdown }

/-- Deliver an event of class `c`. A fault met on the way is delivered in its place, as a double fault when the two
classes make one, and shuts the processor down when the event is itself a double fault (60 R363). A fault of the push that
follows a task gate strikes in the new task, whose switch is complete. `n` bounds the chain, which has at most four links: a
benign event, a contributory one, a page fault, a double fault. -/
def deliverFrom : Nat → FaultClass → Event → State → Host.Outcome State Fault Refusal
  | 0, _, _, s => .next s.shutDown
  | n + 1, c, ev, s =>
    match attempt ev s with
    | .done t => .next t
    | .refused r => .refused r
    | .faulted e t =>
      let s' := t.raised e
      if c = .double then .next s'.shutDown
      else if doubleFaults c e.faultClass then deliverFrom n .double (Exn.df.event s') s'
      else deliverFrom n e.faultClass (e.event s') s'

/-- Deliver an event that is no exception of the instruction at EIP: an interrupt, a trap, a machine check. -/
def takeEvent (ev : Event) (s : State) : Host.Outcome State Fault Refusal := deliverFrom 5 .benign ev s

/-- TAKE AN EXCEPTION raised by the instruction at EIP in the state before it (60 R321, R354, R355). -/
def takeException (e : Exn) (s : State) : Host.Outcome State Fault Refusal :=
  deliverFrom 5 e.faultClass (e.event (s.raised e)) (s.raised e)

/-- The state after an instruction that began with TF = `tf` and completed: single step follows if TF was 1 (60 R334). -/
def State.stepped (t : State) (tf : Bool) : State := { t with pending := { t.pending with singleStep := tf } }

/-- Deliver the event of an instruction that completes by raising it, a trap: single step follows as after any instruction that
completes, unless the delivery faults (60 R321, R334; log 13). -/
def takeTrap (ev : Event) (s : State) : Host.Outcome State Fault Refusal :=
  match attempt ev s with
  | .done t => .next (t.stepped s.tf)
  | _ => takeEvent ev s

/-- The outcome of a computation that began in state `s`: its final state, or the exception it raised taken in `s`. -/
def settle (s : State) : Except Stop (Unit × State) → Host.Outcome State Fault Refusal
  | .ok (_, t) => .next t
  | .error (.refused r) => .refused r
  | .error (.exc e) => takeException e s

/-! ### How an instruction begins and ends -/

/-- LOCK raises #UD (30_encoding.md R193); otherwise REPNE and REP are refused (U10; log 21). -/
def checkPrefixes (p : List Prefix) : Exec Unit := do
  raiseIf (p.contains .lock) .ud
  refuseIf (p.contains .repne || p.contains .rep) .repeatPrefix

/-- The end of an instruction that goes on to the next one: RF is cleared (60 R336), EIP advances by the instruction's length
(10_state.md R22, R23), and single step follows if TF was 1 when it began (60 R334). -/
def State.advance (s t : State) (i : Instr) : State :=
  (t.jumpTo (s.eipPlus i.length) (clearRf t.eflags)).stepped s.tf

/-- Run an instruction that goes on to the next one. -/
def runInstr (i : Instr) (body : Exec Unit) (s : State) : Host.Outcome State Fault Refusal :=
  settle s ((do checkPrefixes i.prefixes; body; modify fun t => s.advance t i : Exec Unit).run s)

/-- Run an instruction that writes EIP and EFLAGS itself. -/
def runTransfer (i : Instr) (body : Exec Unit) (s : State) : Host.Outcome State Fault Refusal :=
  settle s ((do
    checkPrefixes i.prefixes
    body
    modify fun t => t.stepped s.tf : Exec Unit).run s)

/-- A level-0 instruction elsewhere raises #GP(0) (60 R377). -/
def requirePrivilege : Exec Unit := do
  let s ← get
  raiseIf (!s.privileged) (.gp 0)

/-! ### The return from an exception: IRET (44_task_and_coprocessor_instructions.md R302) -/

/-- The three values every IRET pops. -/
def popFrame (z : OpSize) : Exec (Word32 × Word16 × Word32) := do
  let eip ← pop z
  let cs ← pop z
  let fl ← pop z
  pure (eip, low16 cs, fl)

/-- In Real Mode, and in Virtual-86 Mode with IOPL = 3 (44 R302). -/
def iretReal (z : OpSize) : Exec Unit := do
  let s ← get
  let (eip, cs, fl) ← popFrame z
  modify fun t => (t.loadReal .cs cs).jumpTo eip (s.iretEflags z fl)

/-- A 16-bit IRET in Virtual-86 Mode with the virtual flags in use (60 R371). -/
def iretVirtual : Exec Unit := do
  let s ← get
  let (eip, cs, fl) ← popFrame .s16
  raiseIf (bit fl 8) (.gp 0)
  raiseIf (bit fl 9 && s.vip) (.gp 0)
  modify fun t => (t.loadReal .cs cs).jumpTo eip (s.virtualIretEflags (low16 fl))

/-- The return from a called task: NT = 1 (44 R302, R303). `next` is the saved EIP. The back link stands at offset 0 of a TSS of either
size (20_memory.md R157; log 45). -/
def iretTask (next : Word32) : Exec Unit := do
  let s ← get
  let sel ← tss16 s.tr.cache.base 0
  let d ← findTss sel true (.ts (selCode sel)) 0
  taskSwitch sel d .iret next (setBit (clearRf s.eflags) 14 false) 0

/-- The return to Virtual-86 Mode (44 R302): six more pops, and level 3. The pops are made in Protected Mode at level 0, and EFLAGS
and the segment registers are loaded after them (log 43). -/
def iretToV86 (eip : Word32) (cs : Word16) (fl : Word32) : Exec Unit := do
  let s ← get
  let esp ← pop .s32
  let ss ← pop .s32
  let es ← pop .s32
  let ds ← pop .s32
  let fs ← pop .s32
  let gs ← pop .s32
  modify fun t =>
    ((t.loadV86All (low16 es) cs (low16 ss) (low16 ds) (low16 fs) (low16 gs)).setReg .esp esp).jumpTo
      eip (s.iretEflags .s32 fl)

/-- The descriptor of the CS an IRET returns to (44 R302; log 19). Its limit is held against the whole popped EIP, of a 16-bit code
segment too, though EIP then keeps 16 bits of it (log 28). -/
def returnCode (sel : Word16) (eip : Word32) : Exec SegCache := do
  let s ← get
  raiseIf (selNull sel) (.gp 0)
  let d ← readDescriptor sel (.gp (selCode sel))
  raiseIf (!codeFits d (selRpl sel) || decide (selRpl sel < s.cpl)) (.gp (selCode sel))
  raiseIf (!d.present) (.np (selCode sel))
  raiseIf (!d.inLimit eip 1) (.gp 0)
  pure d

/-- A data segment register that level `n` may not use becomes null (44 R302). -/
def nullIfInner (n : BitVec 2) (g : SegState) : SegState :=
  if (g.cache.isData || (g.cache.isCode && !g.cache.conforming)) && decide (g.cache.dpl < n) then .null 0 else g

/-- The segment registers after a return to level `n` (44 R302). -/
def nullInner (n : BitVec 2) (g : Segs) : Segs :=
  { g with ds := nullIfInner n g.ds, es := nullIfInner n g.es, fs := nullIfInner n g.fs, gs := nullIfInner n g.gs }

/-- The pops and loads of a return to outer level `n` (44 R302). -/
def iretOuterStack (z : OpSize) (n : BitVec 2) : Exec Unit := do
  let esp ← pop z
  let ss ← pop z
  let sel := low16 ss
  raiseIf (selNull sel) (.gp 0)
  let d ← readDescriptor sel (.gp (selCode sel))
  raiseIf (!stackFits d sel n) (.gp (selCode sel))
  raiseIf (!d.present) (.ss (selCode sel))
  loadSeg .ss sel d
  modify fun t => { t.setReg .esp esp with segs := nullInner n t.segs }

/-- A return within Protected Mode, to the same level or an outer one (44 R302). -/
def iretProtected (z : OpSize) (eip : Word32) (cs : Word16) (fl : Word32) : Exec Unit := do
  let s ← get
  let d ← returnCode cs eip
  onlyIf (decide (s.cpl < selRpl cs)) (iretOuterStack z (selRpl cs))
  loadSeg .cs cs d
  modify fun t => { t.jumpTo eip (s.iretEflags z fl) with cplField := selRpl cs }

/-- IRET by mode, NT and the popped VM (44 R302). `next` is the EIP after the instruction. -/
def iretBody (z : OpSize) (next : Word32) : Exec Unit := do
  let s ← get
  if !s.pe then iretReal z
  else if s.vm then
    if s.iopl = 3 then iretReal z
    else if s.vme && z == .s16 then iretVirtual
    else raise (.gp 0)
  else if s.nt then iretTask next
  else do
    let (eip, cs, fl) ← popFrame z
    if bit fl 17 && s.cpl == 0 && z == .s32 then iretToV86 eip cs fl
    else iretProtected z eip cs fl

/-- RETURN FROM AN EXCEPTION, which also ends the hold on NMIs (44 R302; 60 R351, R365). -/
def returnFromException (z : OpSize) (next : Word32) : Exec Unit := do
  iretBody z next
  modify fun t => { t with nmiBlocked := false }

end Sys2Proof.Machine
end

