-- ==== Sys2Proof/Machine/ControlRegs.lean ====
section
/-! DEFINITION. MOV to and from control registers, SMSW, LMSW, CLTS (41_control_register_instructions.md). The arithmetic
flags stay (D21). -/

namespace Sys2Proof.Machine

/-- CR0, CR2, CR3 and, on a part that has it, CR4 (41 R244). -/
def State.hasCr (s : State) (n : BitVec 3) : Bool :=
  n == 0 || n == 2 || n == 3 || (n == 4 && s.part.features.cr4)

/-- A control register by number (41 R240). -/
def State.readCr (s : State) (n : BitVec 3) : Word32 :=
  if n = 0 then s.cr0 else if n = 2 then s.cr2 else if n = 3 then s.cr3 else s.cr4

/-- MOV r32, CRn (41 R240). -/
def execMovFromCr (p : List Prefix) (mod : BitVec 2) (n : BitVec 3) (r : Gpr) (s : State) : Host.Outcome State Fault Refusal :=
  runInstr (.movFromCr p mod n r) (do
    raiseIf (!s.hasCr n) .ud
    requirePrivilege
    modify fun s => s.setReg r (s.readCr n)) s

/-- CR0 with a new value: PE and PG act at once, a change of either empties the TLB, and entering Protected Mode begins at
level 0 (41 R243; 70 R402; log 9). -/
def State.setCr0 (s : State) (v : Word32) : State :=
  let t := if bit v 31 != s.pg || bit v 0 != s.pe then s.flushTlb else s
  { t with cr0 := v, cplField := if !s.pe && bit v 0 then 0 else s.cplField }

/-- `WriteCR0(v)` (41 R243). -/
def writeCr0 (v : Word32) : Exec Unit := do
  raiseIf (bit v 31 && !bit v 0) (.gp 0)
  raiseIf (!bit v 30 && bit v 29) (.gp 0)
  modify fun s => s.setCr0 (fixCr0 v)

/-- `WriteCR3(v)` (41 R245). -/
def writeCr3 (v : Word32) : Exec Unit := modify fun s => { s.flushTlb with cr3 := v &&& cr3Kept }

/-- `WriteCR4(v)` (41 R246; D17). -/
def writeCr4 (v : Word32) : Exec Unit := do
  let s ← get
  raiseIf (v &&& ~~~ cr4Mask s.part.features != 0) (.gp 0)
  modify fun s => { (if bit v 4 != bit s.cr4 4 || bit v 7 != bit s.cr4 7 then s.flushTlb else s) with cr4 := v }

/-- Write a control register by number (41 R241). -/
def writeCr (n : BitVec 3) (v : Word32) : Exec Unit :=
  if n = 0 then writeCr0 v
  else if n = 2 then modify fun s => { s with cr2 := v }
  else if n = 3 then writeCr3 v
  else writeCr4 v

/-- MOV CRn, r32 (41 R241). -/
def execMovToCr (p : List Prefix) (mod : BitVec 2) (n : BitVec 3) (r : Gpr) (s : State) : Host.Outcome State Fault Refusal :=
  runInstr (.movToCr p mod n r) (do
    raiseIf (!s.hasCr n) .ud
    requirePrivilege
    writeCr n (s.reg r)) s

/-- SMSW (41 R248). -/
def execSmsw (p : List Prefix) (o : RmOp) (s : State) : Host.Outcome State Fault Refusal :=
  runInstr (.smsw p o) (writeRm16 p (low16 s.cr0) o) s

/-- CR0 after LMSW of `w`: TS, EM, MP from the operand, PE set but never cleared (41 R247). -/
def lmswCr0 (cr0 : Word32) (w : Word16) : Word32 := merge 0x0000000E cr0 (zext32 w) ||| zext32 (field w 0 1)

/-- LMSW (41 R247). -/
def execLmsw (p : List Prefix) (o : RmOp) (s : State) : Host.Outcome State Fault Refusal :=
  runInstr (.lmsw p o) (do
    requirePrivilege
    let w ← readRm16 p o
    modify fun s => s.setCr0 (lmswCr0 s.cr0 w)) s

/-- CLTS (41 R249). -/
def execClts (p : List Prefix) (s : State) : Host.Outcome State Fault Refusal :=
  runInstr (.clts p) (do
    requirePrivilege
    modify fun s => { s with cr0 := setBit s.cr0 3 false }) s

end Sys2Proof.Machine
end

