-- ==== Sys2Proof/Machine/DebugTest.lean ====
section
/-! DEFINITION. MOV to and from debug and test registers, INT3 (42_debug_and_test_register_instructions.md). -/

namespace Sys2Proof.Machine

/-! ### Debug registers -/

/-- DR4 and DR5 name DR6 and DR7 (42 R262). -/
def debugAlias (n : BitVec 3) : BitVec 3 := if n = 4 then 6 else if n = 5 then 7 else n

/-- DR4 and DR5 are no registers while CR4.DE = 1 (42 R262). -/
def State.noDebugReg (s : State) (n : BitVec 3) : Bool := (n == 4 || n == 5) && s.de

/-- What a read of a debug register gives (42 R260; D18). -/
def State.readDr (s : State) (n : BitVec 3) : Word32 :=
  let m := debugAlias n
  if m = 0 then s.dr0 else if m = 1 then s.dr1 else if m = 2 then s.dr2 else if m = 3 then s.dr3
  else if m = 6 then s.readDr6 else s.readDr7

/-- A debug register written (42 R261; D18). -/
def State.writeDr (s : State) (n : BitVec 3) (v : Word32) : State :=
  let m := debugAlias n
  if m = 0 then { s with dr0 := v } else if m = 1 then { s with dr1 := v } else if m = 2 then { s with dr2 := v }
  else if m = 3 then { s with dr3 := v } else if m = 6 then { s with dr6 := v &&& dr6Named } else { s with dr7 := v &&& dr7Named }

/-- The checks of an access to debug register `n`, in order: the number, the privilege level, the guard DR7.GD, which
raises #DB with BD and any value of Bn of the disabled conditions met (42 R260 to R264; 60 R332, U13). -/
def checkDebugAccess (n : BitVec 3) : Exec Unit := do
  let s ← get
  raiseIf (s.noDebugReg n) .ud
  requirePrivilege
  raiseIf s.gd (.db (dr6Bd ||| s.bFlags 0 s.pending.disabled) false)

/-- MOV r32, DRn (42 R260). -/
def execMovFromDr (p : List Prefix) (mod : BitVec 2) (n : BitVec 3) (r : Gpr) (s : State) : Host.Outcome State Fault Refusal :=
  runInstr (.movFromDr p mod n r) (do
    checkDebugAccess n
    modify fun s => s.setReg r (s.readDr n)) s

/-- MOV DRn, r32 (42 R261). -/
def execMovToDr (p : List Prefix) (mod : BitVec 2) (n : BitVec 3) (r : Gpr) (s : State) : Host.Outcome State Fault Refusal :=
  runInstr (.movToDr p mod n r) (do
    checkDebugAccess n
    modify fun s => s.writeDr n (s.reg r)) s

/-! ### TLB test registers (42 R265 to R269) -/

/-- TR6.LINEAR. -/
def tr6Linear (v : Word32) : BitVec 20 := field v 12 20

/-- The attribute a TLB write stores: X of a pair (X, X#) with one bit set, else free (42 R267, U7). -/
def pairValue (x xn free : Bool) : Bool := if x == xn then free else x

/-- A pair (X, X#) of TR6 matches an entry's X: (0,0) nothing, (1,1) anything (42 R267). -/
def pairMatches (x xn e : Bool) : Bool := if x == xn then x else x == e

/-- The entry a TLB write stores from TR6, TR7 and the free attributes `f` (42 R268). -/
def writtenEntry (tr6 tr7 : Word32) (f : BitVec 3) : TlbEntry :=
  { lin := tr6Linear tr6
    v := bit tr6 11
    d := pairValue (bit tr6 10) (bit tr6 9) (bit f 2)
    u := pairValue (bit tr6 8) (bit tr6 7) (bit f 1)
    w := pairValue (bit tr6 6) (bit tr6 5) (bit f 0)
    phys := field tr7 12 20 }

/-- `TLBWrite()` (42 R268). With HT = 0 it is refused (U9). -/
def tlbWrite : Exec Unit := do
  let s ← get
  refuseIf (!bit s.tr7 4) .tlbWriteWithoutHt
  let k ← draw
  modify fun t => t.setTlb (field s.tr7 2 2) (tr6Linear s.tr6) (writtenEntry s.tr6 s.tr7 (Config.tlbWrittenAttr k))

/-- An entry has the attributes TR6 asks for (42 R267, R269). -/
def attrMatches (tr6 : Word32) (e : TlbEntry) : Bool :=
  pairMatches (bit tr6 10) (bit tr6 9) e.d && pairMatches (bit tr6 8) (bit tr6 7) e.u
    && pairMatches (bit tr6 6) (bit tr6 5) e.w

/-- The blocks a TLB lookup finds (42 R269). -/
def State.tlbFound (s : State) : List (BitVec 2) :=
  (s.tlbHits (tr6Linear s.tr6)).filter fun b => attrMatches s.tr6 (s.tlbEntry b (tr6Linear s.tr6))

/-- TR6 after a lookup that finds `e`: V and the three pairs report the entry (42 R269). -/
def foundTr6 (tr6 : Word32) (e : TlbEntry) : Word32 :=
  setBit (setBit (setBit (setBit (setBit (setBit (setBit tr6 11 true) 10 e.d) 9 (!e.d)) 8 e.u) 7 (!e.u)) 6 e.w) 5 (!e.w)

/-- TR7 from its three fields (10_state.md R113). -/
def tr7Of (phys : BitVec 20) (ht : Bool) (rep : BitVec 2) : Word32 :=
  (phys ++ (0 : BitVec 7)) ++ (BitVec.ofBool ht ++ rep ++ (0 : BitVec 2))

/-- `TLBRead()` (42 R269). After a miss PHYSICAL and REP are free (U8). Two valid entries of the page are refused (U9). -/
def tlbRead : Exec Unit := do
  let s ← get
  refuseIf (decide (1 < (s.tlbHits (tr6Linear s.tr6)).length)) .tlbDuplicate
  match s.tlbFound with
  | b :: _ =>
    let e := s.tlbEntry b (tr6Linear s.tr6)
    set { s with tr6 := foundTr6 s.tr6 e, tr7 := tr7Of e.phys true b }
  | [] => do
    let k ← draw
    modify fun t => { t with tr7 := tr7Of (Config.tr7AfterMiss k).1 false (Config.tr7AfterMiss k).2 }

/-- TR6 and TR7 exist, no other test register does (42 R265; D19). -/
def noTestReg (n : BitVec 3) : Bool := n != 6 && n != 7

/-- MOV r32, TRn (42 R265). -/
def execMovFromTr (p : List Prefix) (mod : BitVec 2) (n : BitVec 3) (r : Gpr) (s : State) : Host.Outcome State Fault Refusal :=
  runInstr (.movFromTr p mod n r) (do
    refuseIf (noTestReg n) .noTestRegister
    requirePrivilege
    modify fun s => s.setReg r (if n = 6 then s.tr6 else s.tr7)) s

/-- Write a test register; a write to TR6 starts the command that its bit C names (42 R266). -/
def writeTestReg (n : BitVec 3) (v : Word32) : Exec Unit :=
  if n = 7 then modify fun s => { s with tr7 := v &&& tr7Named }
  else do
    modify fun s => { s with tr6 := v &&& tr6Named }
    if bit v 0 then tlbRead else tlbWrite

/-- MOV TRn, r32 (42 R266). -/
def execMovToTr (p : List Prefix) (mod : BitVec 2) (n : BitVec 3) (r : Gpr) (s : State) : Host.Outcome State Fault Refusal :=
  runInstr (.movToTr p mod n r) (do
    refuseIf (noTestReg n) .noTestRegister
    requirePrivilege
    writeTestReg n (s.reg r)) s

/-! ### INT3 -/

/-- The event of INT3: a trap whose saved EIP is that of the next instruction (42 R270). RF is clear: the instruction
completes (60 R336). -/
def breakpointEvent (next : Word32) : Event :=
  { vector := 3, code := none, eip := next, rf := false, software := true, external := false }

/-- INT3 (42 R270): single step follows it when TF was 1 (60 R334). -/
def execInt3 (p : List Prefix) (s : State) : Host.Outcome State Fault Refusal :=
  match (checkPrefixes p).run s with
  | .ok (_, t) => takeTrap (breakpointEvent (s.eipPlus (Instr.int3 p).length)) t
  | .error e => settle s (.error e)

end Sys2Proof.Machine
end

