-- ==== Sys2Proof/Machine/DescriptorTables.lean ====
section
/-! DEFINITION. SGDT, SIDT, LGDT, LIDT, SLDT, STR, LLDT, LTR (40_descriptor_table_instructions.md). -/

namespace Sys2Proof.Machine

/-- A table register is a memory operand only (40 R220; 30_encoding.md R210). -/
def requireMemory (o : RmOp) : Exec Unit := raiseIf (isRegister o) .ud

/-- Recognised only in Protected Mode (40 R221). -/
def requireProtected : Exec Unit := do
  let s ← get
  raiseIf (!s.prot) .ud

/-- SGDT (40 R222). -/
def execSgdt (p : List Prefix) (o : RmOp) (s : State) : Host.Outcome State Fault Refusal :=
  runInstr (.sgdt p o) (do requireMemory o; writeTable p o s.gdtr) s

/-- SIDT (40 R225). -/
def execSidt (p : List Prefix) (o : RmOp) (s : State) : Host.Outcome State Fault Refusal :=
  runInstr (.sidt p o) (do requireMemory o; writeTable p o s.idtr) s

/-- LGDT (40 R220). -/
def execLgdt (p : List Prefix) (o : RmOp) (s : State) : Host.Outcome State Fault Refusal :=
  runInstr (.lgdt p o) (do
    requireMemory o
    requirePrivilege
    let t ← readTable p o
    modify fun s => { s with gdtr := t }) s

/-- LIDT (40 R224). -/
def execLidt (p : List Prefix) (o : RmOp) (s : State) : Host.Outcome State Fault Refusal :=
  runInstr (.lidt p o) (do
    requireMemory o
    requirePrivilege
    let t ← readTable p o
    modify fun s => { s with idtr := t }) s

/-- SLDT (40 R227). -/
def execSldt (p : List Prefix) (o : RmOp) (s : State) : Host.Outcome State Fault Refusal :=
  runInstr (.sldt p o) (do requireProtected; writeRm16 p s.ldtr.sel o) s

/-- STR (40 R229). -/
def execStr (p : List Prefix) (o : RmOp) (s : State) : Host.Outcome State Fault Refusal :=
  runInstr (.str p o) (do requireProtected; writeRm16 p s.tr.sel o) s

/-- Load LDTR: a null selector empties it, any other must name a present LDT descriptor of the GDT (40 R226). -/
def loadLdt (sel : Word16) : Exec Unit := do
  if selNull sel then modify fun s => { s with ldtr := .null sel }
  else do
    raiseIf (selTi sel) (.gp (selCode sel))
    let d ← readDescriptor sel (.gp (selCode sel))
    raiseIf (!d.isSystem 2) (.gp (selCode sel))
    raiseIf (!d.present) (.np (selCode sel))
    modify fun s => { s with ldtr := { sel := sel, cache := d } }

/-- LLDT (40 R226). -/
def execLldt (p : List Prefix) (o : RmOp) (s : State) : Host.Outcome State Fault Refusal :=
  runInstr (.lldt p o) (do
    requireProtected
    requirePrivilege
    let sel ← readRm16 p o
    loadLdt sel) s

/-- Load TR: the selector must name a present available TSS of the GDT, 16 or 32 bits, which becomes busy in memory and
in the cache (40 R228). -/
def loadTask (sel : Word16) : Exec Unit := do
  raiseIf (selNull sel) (.gp 0)
  raiseIf (selTi sel) (.gp (selCode sel))
  let d ← readDescriptor sel (.gp (selCode sel))
  raiseIf (!d.isTss false) (.gp (selCode sel))
  raiseIf (!d.present) (.np (selCode sel))
  markBusy sel true
  modify fun s => { s with tr := { sel := sel, cache := d.withType (setBit d.type 1 true) } }

/-- LTR (40 R228). -/
def execLtr (p : List Prefix) (o : RmOp) (s : State) : Host.Outcome State Fault Refusal :=
  runInstr (.ltr p o) (do
    requireProtected
    requirePrivilege
    let sel ← readRm16 p o
    loadTask sel) s

end Sys2Proof.Machine
end

