-- ==== Sys2Proof/Machine/ModelSpecific.lean ====
section
/-! DEFINITION. RDMSR, WRMSR, RDTSC, RDPMC, CPUID (43_model_specific_instructions.md). -/

namespace Sys2Proof.Machine

/-! ### Model-specific registers by number (10_state.md R115 to R118) -/

/-- The register with number `k`. Bits 63 to 40 of a counter read as 0 (43 R280, R288; log 27). -/
def Msrs.get (m : Msrs) (k : Word32) : Option Word64 :=
  if k = 0x00 then some m.mcAddr else if k = 0x01 then some m.mcType
  else if k = 0x02 then some m.tr1 else if k = 0x04 then some m.tr2 else if k = 0x05 then some m.tr3
  else if k = 0x06 then some m.tr4 else if k = 0x07 then some m.tr5 else if k = 0x08 then some m.tr6
  else if k = 0x09 then some m.tr7 else if k = 0x0B then some m.tr9 else if k = 0x0C then some m.tr10
  else if k = 0x0D then some m.tr11 else if k = 0x0E then some m.tr12 else if k = 0x10 then some m.tsc
  else if k = 0x11 then some m.cesr else if k = 0x12 then some (m.ctr0.setWidth 64)
  else if k = 0x13 then some (m.ctr1.setWidth 64) else none

/-- The registers with number `k` made `v`; a counter keeps its 40 bits. Numbers 08h and 09h are registers of their own, not the TR6
and TR7 of MOV (10_state.md R110, R117; log 40). -/
def Msrs.set (m : Msrs) (k : Word32) (v : Word64) : Msrs :=
  if k = 0x00 then { m with mcAddr := v } else if k = 0x01 then { m with mcType := v }
  else if k = 0x02 then { m with tr1 := v } else if k = 0x04 then { m with tr2 := v } else if k = 0x05 then { m with tr3 := v }
  else if k = 0x06 then { m with tr4 := v } else if k = 0x07 then { m with tr5 := v } else if k = 0x08 then { m with tr6 := v }
  else if k = 0x09 then { m with tr7 := v } else if k = 0x0B then { m with tr9 := v } else if k = 0x0C then { m with tr10 := v }
  else if k = 0x0D then { m with tr11 := v } else if k = 0x0E then { m with tr12 := v } else if k = 0x10 then { m with tsc := v }
  else if k = 0x11 then { m with cesr := v } else if k = 0x12 then { m with ctr0 := v.setWidth 40 }
  else if k = 0x13 then { m with ctr1 := v.setWidth 40 } else m

/-- The part has register `k` (43 R281, `MSR_SET`). -/
def State.hasMsr (s : State) (k : Word32) : Bool := s.part.msrSet.contains k && (s.msr.get k).isSome

/-- The register is not writable on this part (92 section 2, `MSR_SET`; U16). -/
def State.msrFixed (s : State) (k : Word32) : Bool := s.part.msrReadOnly.contains k

/-- A write sets a reserved bit: the counters have 40 bits (43 R281, R288; log 27). -/
def msrReserved (k : Word32) (v : Word64) : Bool := (k == 0x12 || k == 0x13) && v.toNat / 2 ^ 40 != 0

/-- What RDMSR and WRMSR check, on a part that has the instruction (`present`): Protected Mode at level 0, the number; Real Mode is
left open (43 R281, R282; D22). -/
def requireMsrAccess (present : Bool) : Exec Unit := do
  let s ← get
  raiseIf (!present) .ud
  refuseIf (!s.pe) .msrRealMode
  requirePrivilege
  raiseIf (!s.hasMsr s.gpr.ecx) (.gp 0)

/-- EDX:EAX made `v` (43 R280). -/
def State.setEdxEax (s : State) (v : Word64) : State :=
  { s with gpr := { s.gpr with edx := field v 32 32, eax := field v 0 32 } }

/-- EDX:EAX (43 R283). -/
def State.edxEax (s : State) : Word64 := s.gpr.edx ++ s.gpr.eax

/-- RDMSR (43 R280). -/
def execRdmsr (p : List Prefix) (s : State) : Host.Outcome State Fault Refusal :=
  runInstr (.rdmsr p) (do
    requireMsrAccess s.part.features.rdmsr
    modify fun s => s.setEdxEax ((s.msr.get s.gpr.ecx).getD 0)) s

/-- WRMSR (43 R283). -/
def execWrmsr (p : List Prefix) (s : State) : Host.Outcome State Fault Refusal :=
  runInstr (.wrmsr p) (do
    requireMsrAccess s.part.features.wrmsr
    raiseIf (s.msrFixed s.gpr.ecx || msrReserved s.gpr.ecx s.edxEax) (.gp 0)
    modify fun s => { s with msr := s.msr.set s.gpr.ecx s.edxEax }) s

/-! ### Counters and identification -/

/-- RDTSC (43 R285, R286). -/
def execRdtsc (p : List Prefix) (s : State) : Host.Outcome State Fault Refusal :=
  runInstr (.rdtsc p) (do
    raiseIf (!s.part.features.rdtsc) .ud
    raiseIf (s.tsd && !s.privileged) (.gp 0)
    modify fun s => s.setEdxEax s.msr.tsc) s

/-- The counter RDPMC reads (43 R288). -/
def State.counter (s : State) (k : Word32) : BitVec 40 := if k = 0 then s.msr.ctr0 else s.msr.ctr1

/-- RDPMC (43 R288, R289). -/
def execRdpmc (p : List Prefix) (s : State) : Host.Outcome State Fault Refusal :=
  runInstr (.rdpmc p) (do
    raiseIf (!s.part.features.rdpmc) .ud
    raiseIf (!s.pce && !s.privileged) (.gp 0)
    raiseIf (s.gpr.ecx != 0 && s.gpr.ecx != 1) (.gp 0)
    modify fun s => s.setEdxEax ((s.counter s.gpr.ecx).setWidth 64)) s

/-- The flags of input 1 that belong to an option of `FEATURES` (43 R292): FPU VME DE PSE TSC MSR MCE CX8 APIC PGE MMX. -/
def featureFlagBits : Word32 := 0x008023BF

/-- A flag is 1 exactly when its options are present (43 R292); VME, TSC and MSR stand for two options each (log 1). -/
def featureFlags (f : Features) : Word32 :=
  BitVec.ofNat 32
    (f.fpu.toNat + 2 * (f.vme && f.pvi).toNat + 4 * f.de.toNat + 8 * f.pse.toNat + 16 * (f.rdtsc && f.tsd).toNat
      + 32 * (f.rdmsr && f.wrmsr).toNat + 128 * f.mce.toNat + 256 * f.cx8.toNat + 512 * f.apic.toNat + 8192 * f.pge.toNat
      + 8388608 * f.mmx.toNat)

/-- The row of input 1: the signature that EDX holds after reset, two outputs of the part, and the feature flags (43 R292). -/
def identification (p : Part) : CpuidRow :=
  { eax := p.signature, ebx := p.cpuidEbx, ecx := p.cpuidEcx
    edx := featureFlags p.features ||| (p.cpuidOtherFlags &&& ~~~ featureFlagBits) }

/-- `CPUID_TABLE` (43 R292). -/
def cpuidTable (p : Part) (leaf : Word32) : CpuidRow :=
  if leaf = 0 then p.cpuidVendor
  else if leaf = 1 then identification p
  else (p.cpuidRows.lookup leaf).getD (identification p)

/-- The four registers of a row (43 R290). -/
def State.setCpuid (s : State) (c : CpuidRow) : State :=
  { s with gpr := { s.gpr with eax := c.eax, ebx := c.ebx, ecx := c.ecx, edx := c.edx } }

/-- CPUID (43 R290, R291). -/
def execCpuid (p : List Prefix) (s : State) : Host.Outcome State Fault Refusal :=
  runInstr (.cpuid p) (do
    raiseIf (!s.part.features.cpuid) .ud
    refuseIf (!s.idf) .cpuidIdClear
    modify fun s => s.setCpuid (cpuidTable s.part s.gpr.eax)) s

end Sys2Proof.Machine
end

