-- ==== Sys2Proof/Machine/TaskCoproc.lean ====
section
/-! DEFINITION. The far CALL, IRET, WAIT and the coprocessor instructions (44_task_and_coprocessor_instructions.md). -/

namespace Sys2Proof.Machine

/-! ### CALL (44 R300, R301) -/

/-- A far CALL in Real Mode and Virtual-86 Mode: CS and the next EIP pushed, then the jump (44 R301; 10_state.md R45). -/
def callReal (z : OpSize) (sel : Word16) (off next : Word32) : Exec Unit := do
  let s ← get
  push z (zext32 s.segs.cs.sel)
  push z next
  modify fun t => (t.loadReal .cs sel).jumpTo off (clearRf t.eflags)

/-- A call to a task: the images saved in the outgoing TSS are the next EIP and EFLAGS with RF clear (44 R301, 60 R336). -/
def callTask (sel : Word16) (d : SegCache) (next : Word32) : Exec Unit := do
  let s ← get
  taskSwitch sel d .call next (clearRf s.eflags) 0

/-- A call to an available TSS, which must be in the GDT (44 R301; log 39). -/
def callTss (sel : Word16) (d : SegCache) (next : Word32) : Exec Unit := do
  raiseIf (selTi sel) (.gp (selCode sel))
  raiseIf (!d.present) (.np (selCode sel))
  callTask sel d next

/-- A call through a task gate: its TSS must be in the GDT and available (44 R301). The gate's selector is the low half
of what a segment descriptor has as its base. -/
def callGate (sel : Word16) (g : SegCache) (next : Word32) : Exec Unit := do
  raiseIf (!g.present) (.np (selCode sel))
  let sel' := low16 g.base
  let d ← findTss sel' false (.gp (selCode sel')) 0
  callTask sel' d next

/-- A far CALL in Protected Mode, by the type of the descriptor (44 R301; D20). -/
def callProtected (sel : Word16) (next : Word32) : Exec Unit := do
  raiseIf (selNull sel) (.gp 0)
  let d ← readDescriptor sel (.gp (selCode sel))
  let s ← get
  if d.isSystem (tss32Type false) || d.isSystem 5 then do
    raiseIf (decide (d.dpl < s.cpl) || decide (d.dpl < selRpl sel)) (.gp (selCode sel))
    if d.isSystem 5 then callGate sel d next else callTss sel d next
  else if d.isCode || d.isSystem 4 || d.isSystem 0xC then refuse .farCallTarget
  else raise (.gp (selCode sel))

/-- A far CALL (44 R301). -/
def callFar (z : OpSize) (sel : Word16) (off next : Word32) : Exec Unit := do
  let s ← get
  if s.prot then callProtected sel next else callReal z sel off next

/-- The offset of an immediate far pointer. -/
def farOffset : FarPtr → Word32
  | .ptr16 off _ => zext32 off
  | .ptr32 off _ => off

/-- The selector of an immediate far pointer. -/
def farSelector : FarPtr → Word16
  | .ptr16 _ sel => sel
  | .ptr32 _ sel => sel

/-- CALL ptr16:16 and ptr16:32 (44 R301). -/
def execCallPtr (p : List Prefix) (f : FarPtr) (s : State) : Host.Outcome State Fault Refusal :=
  runTransfer (.callPtr p f)
    (callFar (s.operandSize p) (farSelector f) (farOffset f) (s.eipPlus (Instr.callPtr p f).length)) s

/-- CALL m16:16 and m16:32 (44 R301). A register operand raises #UD (30_encoding.md R210). -/
def execCallMem (p : List Prefix) (o : RmOp) (s : State) : Host.Outcome State Fault Refusal :=
  runTransfer (.callMem p o) (do
    raiseIf (isRegister o) .ud
    let (off, sel) ← readFar p o
    callFar (s.operandSize p) sel off (s.eipPlus (Instr.callMem p o).length)) s

/-! ### IRET -/

/-- IRET and IRETD (44 R302). -/
def execIret (p : List Prefix) (s : State) : Host.Outcome State Fault Refusal :=
  runTransfer (.iret p) (returnFromException (s.operandSize p) (s.eipPlus (Instr.iret p).length)) s

/-! ### WAIT and ESC (44 R306 to R310) -/

/-- What a pending numeric error does to a waiting instruction (44 R309). -/
inductive NumericAction
  | proceed
  | fault
  | stop
  deriving DecidableEq, Repr

/-- The table of 44 R309, with no error pending as its first row. -/
def State.numericAction (s : State) : NumericAction :=
  if !s.env.numericError then .proceed
  else if s.ne then .fault
  else if s.env.ignneLow then .proceed
  else .stop

/-- Stop before the instruction until an interrupt is delivered (44 R309). -/
def State.waitHere (s : State) : State := { s with activity := .waiting }

/-- WAIT (44 R308, R309). -/
def execWait (p : List Prefix) (s : State) : Host.Outcome State Fault Refusal :=
  match (do checkPrefixes p; raiseIf (s.mp && s.ts) .nm : Exec Unit).run s with
  | .error e => settle s (.error e)
  | .ok _ =>
    match s.numericAction with
    | .proceed => runInstr (.wait p) (pure ()) s
    | .fault => takeException .mf s
    | .stop => .next s.waitHere

/-- The instructions that do not wait for a pending error: FNINIT, FNCLEX, FNENI, FNDISI, FNSETPM, FNSTCW, FNSTENV,
FNSAVE, FNSTSW (PRESUMED, log 22). `x` is the low three bits of the opcode, `g` and `o` the ModR/M operand. -/
def escWaits (x g : BitVec 3) : RmOp → Bool
  | .reg r => !((x == 3 && g == 4 && (r.num == 0 || r.num == 1 || r.num == 2 || r.num == 3 || r.num == 4))
      || (x == 7 && g == 4 && r.num == 0))
  | _ => !((x == 1 && (g == 6 || g == 7)) || (x == 5 && (g == 6 || g == 7)))

/-- A coprocessor instruction: CR0.EM, CR0.TS and a pending error decide; the floating-point operation itself is outside
the spec and refused (44 R306, R307, R309). -/
def execEsc (p : List Prefix) (x g : BitVec 3) (o : RmOp) (s : State) : Host.Outcome State Fault Refusal :=
  match (do checkPrefixes p; raiseIf (s.em || s.ts) .nm : Exec Unit).run s with
  | .error e => settle s (.error e)
  | .ok _ =>
    match (if escWaits x g o then s.numericAction else .proceed) with
    | .proceed => .refused .fpuOperation
    | .fault => takeException .mf s
    | .stop => .next s.waitHere

end Sys2Proof.Machine
end

