-- ==== Sys2Proof/Machine/Dispatch.lean ====
section
/-! DEFINITION. The meaning of each instruction, one arm per constructor of Instr. -/

namespace Sys2Proof.Machine

/-- What an instruction does, whatever fetched it. -/
def exec (i : Instr) (s : State) : Host.Outcome State Fault Refusal :=
  match i with
  | .sgdt p o => Sys2Proof.Machine.execSgdt p o s
  | .sidt p o => Sys2Proof.Machine.execSidt p o s
  | .lgdt p o => Sys2Proof.Machine.execLgdt p o s
  | .lidt p o => Sys2Proof.Machine.execLidt p o s
  | .sldt p o => Sys2Proof.Machine.execSldt p o s
  | .str p o => Sys2Proof.Machine.execStr p o s
  | .lldt p o => Sys2Proof.Machine.execLldt p o s
  | .ltr p o => Sys2Proof.Machine.execLtr p o s
  | .movFromCr p mod n r => Sys2Proof.Machine.execMovFromCr p mod n r s
  | .movToCr p mod n r => Sys2Proof.Machine.execMovToCr p mod n r s
  | .smsw p o => Sys2Proof.Machine.execSmsw p o s
  | .lmsw p o => Sys2Proof.Machine.execLmsw p o s
  | .clts p => Sys2Proof.Machine.execClts p s
  | .movFromDr p mod n r => Sys2Proof.Machine.execMovFromDr p mod n r s
  | .movToDr p mod n r => Sys2Proof.Machine.execMovToDr p mod n r s
  | .movFromTr p mod n r => Sys2Proof.Machine.execMovFromTr p mod n r s
  | .movToTr p mod n r => Sys2Proof.Machine.execMovToTr p mod n r s
  | .int3 p => Sys2Proof.Machine.execInt3 p s
  | .wrmsr p => Sys2Proof.Machine.execWrmsr p s
  | .rdtsc p => Sys2Proof.Machine.execRdtsc p s
  | .rdmsr p => Sys2Proof.Machine.execRdmsr p s
  | .rdpmc p => Sys2Proof.Machine.execRdpmc p s
  | .cpuid p => Sys2Proof.Machine.execCpuid p s
  | .callPtr p f => Sys2Proof.Machine.execCallPtr p f s
  | .callMem p o => Sys2Proof.Machine.execCallMem p o s
  | .iret p => Sys2Proof.Machine.execIret p s
  | .wait p => Sys2Proof.Machine.execWait p s
  | .esc p x g o => Sys2Proof.Machine.execEsc p x g o s

end Sys2Proof.Machine
end

