-- ==== Sys2Proof/Machine/Fetch.lean ====
section
/-! DEFINITION. Fetching and decoding the next instruction (10_state.md R22; 20_memory.md R179; 60_exceptions.md R353 items 6
to 8; log 34), and where a host's instruction is placed (log 5). -/

namespace Sys2Proof.Machine

/-- The offset of the next instruction: EIP, of which 16-bit code uses bits 15:0 only (10_state.md R22). -/
def State.fetchOffset (s : State) : Word32 := codeOffset s.codeSize s.eip

/-- `n` bytes from EIP lie inside the code segment (20_memory.md R144, R152). -/
def State.codeInLimit (s : State) (n : Nat) : Bool :=
  if s.prot then s.segs.cs.cache.inLimit s.fetchOffset n else decide (s.fetchOffset.toNat + n - 1 ≤ 0xFFFF)

/-- The linear address of the next instruction: `CS.cache.base + EIP` (10_state.md R22). -/
def State.fetchAddr (s : State) : Word32 := s.linear .cs s.fetchOffset

/-- The first `n` bytes at EIP, from current memory (20_memory.md R179, D6). -/
def fetchBytes (n : Nat) : Exec (List Byte) := do
  let s ← get
  raiseIf (!s.codeInLimit n) (.gp 0)
  let pas ← translateRange (s.access false) s.fetchAddr n
  let t ← get
  pure (t.bytesAt pas)

/-- The form of the instruction, or the option it belongs to, is not there in this state: it raises #UD (60 R324; LOCK apart). -/
def State.invalidForm (s : State) : Instr → Bool
  | .sgdt _ o => isRegister o | .sidt _ o => isRegister o | .lgdt _ o => isRegister o | .lidt _ o => isRegister o
  | .sldt _ _ => !s.prot | .str _ _ => !s.prot | .lldt _ _ => !s.prot | .ltr _ _ => !s.prot
  | .movFromCr _ _ n _ => !s.hasCr n | .movToCr _ _ n _ => !s.hasCr n
  | .smsw _ _ => false | .lmsw _ _ => false | .clts _ => false
  | .movFromDr _ _ n _ => s.noDebugReg n | .movToDr _ _ n _ => s.noDebugReg n
  | .movFromTr _ _ _ _ => false | .movToTr _ _ _ _ => false | .int3 _ => false
  | .wrmsr _ => !s.part.features.wrmsr | .rdmsr _ => !s.part.features.rdmsr | .rdtsc _ => !s.part.features.rdtsc
  | .rdpmc _ => !s.part.features.rdpmc | .cpuid _ => !s.part.features.cpuid
  | .callPtr _ _ => false | .callMem _ o => isRegister o | .iret _ => false | .wait _ => false | .esc _ _ _ _ => false

/-- The instruction raises #NM in this state (60 R325). -/
def State.unavailable (s : State) : Instr → Bool
  | .sgdt _ _ => false | .sidt _ _ => false | .lgdt _ _ => false | .lidt _ _ => false
  | .sldt _ _ => false | .str _ _ => false | .lldt _ _ => false | .ltr _ _ => false
  | .movFromCr _ _ _ _ => false | .movToCr _ _ _ _ => false
  | .smsw _ _ => false | .lmsw _ _ => false | .clts _ => false
  | .movFromDr _ _ _ _ => false | .movToDr _ _ _ _ => false
  | .movFromTr _ _ _ _ => false | .movToTr _ _ _ _ => false | .int3 _ => false
  | .wrmsr _ => false | .rdmsr _ => false | .rdtsc _ => false | .rdpmc _ => false | .cpuid _ => false
  | .callPtr _ _ => false | .callMem _ _ => false | .iret _ => false
  | .wait _ => s.mp && s.ts | .esc _ _ _ _ => s.em || s.ts

/-- The exception of an instruction of more than 15 bytes: the decode faults in their order (60 R353 item 8; 30_encoding.md R190,
R193, R210). -/
def State.overlong (s : State) (i : Instr) : Exn :=
  if i.prefixes.contains .lock || s.invalidForm i then .ud
  else if s.unavailable i then .nm
  else .gp 0

/-- What bytes that are no instruction do (30_encoding.md R190, R210; D20). Bytes that end inside the instruction are followed by
another one, unless that is outside the code segment (60 R353 item 7). -/
def State.decodeStop (s : State) : DecodeError → Stop
  | .truncated => .exc (.gp 0)
  | .tooLong i => .exc (s.overlong i)
  | .invalidOpcode => .exc .ud
  | .outsideSpec => .refused .outsideSpec

/-- Fetch `n` bytes, then one more as long as the instruction goes on, `more` times at most. Only the bytes of the
instruction are fetched. -/
def fetchFrom : Nat → Nat → Exec Instr
  | 0, n => fun s =>
    match fetchBytes n s with
    | .error e => .error e
    | .ok (bs, t) =>
      match decode s.codeSize bs with
      | .ok (i, _) => .ok (i, t)
      | .error e => .error (s.decodeStop e)
  | more + 1, n => fun s =>
    match fetchBytes n s with
    | .error e => .error e
    | .ok (bs, t) =>
      match decode s.codeSize bs with
      | .ok (i, _) => .ok (i, t)
      | .error .truncated => fetchFrom more (n + 1) s
      | .error e => .error (s.decodeStop e)

/-- Fetch the next instruction. It has at most 15 bytes (30_encoding.md R190); a longer one is read to its end, to find the fault
that comes first (60 R353 items 7 and 8; log 25). No segment holds 2^32 bytes and one more, where the code segment's limit ends the
fetch. -/
def fetchInstr : Exec Instr := fetchFrom 0x100000000 1

/-- The instruction breakpoints met at EIP, unless RF = 1 (60 R331, R336). -/
def State.instrHits (s : State) : BitVec 4 :=
  if s.rf then 0 else s.bpHits s.draws (.instr s.fetchAddr)

/-- The enabled instruction breakpoints met at EIP that RF = 1 suppresses (60 R336). The spec does not say whether such a one
counts as detected when the instruction raises #DB for another cause: its Bn is then free (log 33). -/
def State.instrSuppressed (s : State) : BitVec 4 :=
  if s.rf then s.bpHits s.draws (.instr s.fetchAddr) else 0

/-- The state in which the instruction at EIP begins: the disabled and the suppressed conditions it meets are noted (U13), and the
free value of an instruction breakpoint with undefined fields is used (U5, U6). -/
def State.afterInstrHits (s : State) : State :=
  { s with
    pending := { s.pending with disabled := s.pending.disabled ||| s.bpUnarmeds (.instr s.fetchAddr) ||| s.instrSuppressed }
    draws := if s.bpAnyOpen (.instr s.fetchAddr) then s.draws + 1 else s.draws }

/-- The #DB of an instruction breakpoint (60 R332, R338). -/
def State.instrBreak (s : State) : Exn :=
  .db (s.afterInstrHits.bFlags s.instrHits (s.bpUnarmeds (.instr s.fetchAddr))) true

/-- The physical addresses of 15 bytes at EIP; the linear ones where they have no translation. -/
def State.fetchPlaces (s : State) : List Word32 :=
  match (translateRange (s.access false) s.fetchAddr 15).run s with
  | .ok (pas, _) => pas
  | .error _ => addrsFrom s.fetchAddr 15

/-- The state with 15 bytes of an instruction where it will be fetched, put there from outside the machine: the map of memory
does not keep them out. -/
def State.placeInstr (s : State) (bs : List Byte) : State :=
  { s with mem := (({ s with part := { s.part with memMap := [] } } : State).storeBytes s.fetchPlaces (padded bs)).mem }

end Sys2Proof.Machine
end

