-- ==== Sys2Proof/Machine/Cycle.lean ====
section
/-! DEFINITION. What happens between two instructions, in the order of 60_exceptions.md R353, and one step of the machine. -/

namespace Sys2Proof.Machine

/-- An event that is no exception of an instruction: the saved EIP is that of the next instruction, the saved RF the
current one (60 R321, R336). -/
def State.between (s : State) (vector : Byte) (external : Bool) : Event :=
  { vector := vector, code := none, eip := s.eip, rf := s.rf, software := false, external := external }

/-- The machine-check registers loaded from the environment's report, which is then gone (60 R329; log 16). -/
def State.loadMachineCheck (s : State) (m : MachineCheck) : State :=
  { s with msr := { s.msr with mcAddr := m.addr, mcType := m.kind }, env := { s.env with machineCheck := none } }

/-- Take a machine check: #MC if CR4.MCE (60 R329). Debug traps still pending are kept, and raised at the boundary before the
handler's first instruction (log 13). -/
def takeMachineCheck (s : State) : Host.Outcome State Fault Refusal :=
  takeEvent (s.between 18 true) { s with activity := .running }

/-- The debug traps left by the last instruction, in DR6 (60 R332, R334, R335). -/
def State.reportPending (s : State) : State :=
  { s with dr6 := s.dr6 ||| s.pendingFlags, pending := .none, draws := s.draws + 1 }

/-- Take them as one #DB (60 R353 items 2 and 3; log 13). -/
def takePending (s : State) : Host.Outcome State Fault Refusal := takeEvent (s.between 1 false) s.reportPending

/-- Take the NMI; others are held off until the next IRET (60 R351). -/
def takeNmi (s : State) : Host.Outcome State Fault Refusal :=
  takeEvent (s.between 2 true) { s with env := { s.env with nmi := false }, nmiBlocked := true, activity := .running }

/-- Take the maskable interrupt with its vector (60 R346). -/
def takeIntr (s : State) (v : Byte) : Host.Outcome State Fault Refusal :=
  takeEvent (s.between v true) { s with env := { s.env with intr := none }, activity := .running }

/-- An NMI is accepted. -/
def State.nmiReady (s : State) : Bool := s.env.nmi && !s.nmiBlocked

/-- A maskable interrupt is accepted: IF = 1 (60 R346). -/
def State.intrReady (s : State) : Option Byte := if s.ifl then s.env.intr else none

/-- Begin the next instruction: its breakpoints, its fetch, its meaning (60 R353 items 6 to 10). -/
def runNext (s : State) : Host.Outcome State Fault Refusal :=
  if s.instrHits != 0 then takeException s.instrBreak s.afterInstrHits
  else
    match fetchInstr.run s.afterInstrHits with
    | .ok (i, t) => exec i t
    | .error e => settle s.afterInstrHits (.error e)

/-- What a processor that is not shut down does next, the machine check apart: the events in order of priority, else the
next instruction, or nothing while it waits for an interrupt (60 R353, R385; 44 R309). -/
def boundary (s : State) : Host.Outcome State Fault Refusal :=
  if s.pending.raises then takePending s
  else if s.nmiReady then takeNmi s
  else
    match s.intrReady with
    | some v => takeIntr s v
    | none => if s.activity = .waiting then .next s else runNext { s with pending := .none }

/-- A processor that is not shut down. -/
def alive (s : State) : Host.Outcome State Fault Refusal :=
  match s.env.machineCheck with
  | some m => if s.mce then takeMachineCheck (s.loadMachineCheck m) else boundary (s.loadMachineCheck m)
  | none => boundary s

/-- A processor that is shut down leaves that state on an NMI only (60 R363). -/
def shutDownStep (s : State) : Host.Outcome State Fault Refusal :=
  if s.nmiReady then takeNmi s else .fault .shutdown

/-- The RESET event: every register as after reset; memory, the environment and the parameters stay (70 R390; log 36). -/
def State.afterReset (s : State) : State :=
  { State.resetOf s.part with mem := s.mem, env := { s.env with reset := false }, draws := s.draws }

/-- The counters move by free amounts at the end of a step (D12; 43 R285, R288; log 11). -/
def State.tick (s : State) : State :=
  { s with
    msr := { s.msr with tsc := s.msr.tsc + BitVec.ofNat 64 (Config.tscAdvance s.draws + 1)
                        ctr0 := (Config.eventCounters s.draws).1
                        ctr1 := (Config.eventCounters s.draws).2 }
    draws := s.draws + 1 }

/-- The counters move after a step that goes on. -/
def ticked : Host.Outcome State Fault Refusal → Host.Outcome State Fault Refusal
  | .next t => .next t.tick
  | .fault f => .fault f
  | .refused r => .refused r

/-- One step: reset, or the processor's next event or instruction. -/
def cycle (s : State) : Host.Outcome State Fault Refusal :=
  if s.env.reset then .next s.afterReset
  else if s.activity = .shutdown then ticked (shutDownStep s)
  else ticked (alive s)

end Sys2Proof.Machine
end

