-- ==== Sys2Proof/Machine/Pins.lean ====
section
/-! DEFINITION. The output pins of the spec as functions of the state (10_state.md R82, R123; 20_memory.md R181, R182; log 26).
They change nothing (D5). -/

namespace Sys2Proof.Machine

/-- FERR# is driven: an unmasked numeric error is pending with CR0.NE = 0 (10_state.md R67, R123; 44 R309). -/
def State.ferr (s : State) : Bool := s.env.numericError && !s.ne

/-- The entry whose PCD and PWT bits an access through paging drives: the directory entry of a 4 MB page, else the table
entry (20_memory.md R164, R165). It is read from memory as it is now, also when the access hits a TLB entry that is older or that
TR6 and TR7 wrote, which holds no such bits (log 26). -/
def State.leafEntry (s : State) (lin : Word32) : Word32 :=
  let pde := s.phys32 (s.pdeAddr lin)
  if s.maps4M pde then pde else s.phys32 (pteAddr pde lin)

/-- PCD for an access to a linear address: CR3's bit when paging is off (10_state.md R82). -/
def State.pcd (s : State) (lin : Word32) : Bool := if s.paging then bit (s.leafEntry lin) 4 else bit s.cr3 4

/-- PWT for an access to a linear address. -/
def State.pwt (s : State) (lin : Word32) : Bool := if s.paging then bit (s.leafEntry lin) 3 else bit s.cr3 3

/-- PCD and PWT for the processor's own access to the page directory: CR3's flags (20_memory.md R182). -/
def State.directoryPins (s : State) : Bool × Bool := (bit s.cr3 4, bit s.cr3 3)

/-- A read may fill a line of the internal cache (10_state.md R63, R82). -/
def State.mayFillLine (s : State) (lin : Word32) : Bool := !s.cd && !s.pcd lin && s.env.kenLow

end Sys2Proof.Machine
end

