-- ==== Sys2Proof/Safety.lean ====
section
/-! DEFINITION. What a legal state is, and what a run that goes on is. -/

namespace Sys2Proof.Machine

/-- The fixed bits of EFLAGS and of the control, debug and test registers read as the spec draws them, and EIP[31:16] is 0 in 16-bit
code (10_state.md R22, R36, R68, R73, R81, R93, R98, R104, R112, R113). -/
def State.fixedBits (s : State) : Prop :=
  s.fixImage s.eflags = s.eflags ∧ fixCr0 s.cr0 = s.cr0 ∧ s.cr3 &&& cr3Kept = s.cr3
    ∧ s.cr4 &&& cr4Mask s.part.features = s.cr4 ∧ s.dr6 &&& dr6Named = s.dr6 ∧ s.dr7 &&& dr7Named = s.dr7
    ∧ s.tr6 &&& tr6Named = s.tr6 ∧ s.tr7 &&& tr7Named = s.tr7 ∧ (s.codeSize = .s16 → field s.eip 16 16 = 0)

/-- PG implies PE, VM implies PE, and CD = 0 with NW = 1 does not occur (41 R243; 60 R374, R375). -/
def State.legalMode (s : State) : Prop :=
  (s.pg = true → s.pe = true) ∧ (s.vm = true → s.pe = true) ∧ (s.cd = false → bit s.cr0 29 = false)

/-- A state the processor can be in: canonical memory, fixed bits, a legal mode, a TLB of 32 entries. -/
def State.legal (s : State) : Prop := Memory.wf s.mem = true ∧ s.fixedBits ∧ s.legalMode ∧ s.tlb.length = 32

/-- A step goes on. -/
def goesOn (s : State) : Prop := ∃ t, step s = .next t

/-! ### The terms the statements use -/

/-- No LOCK, REPNE or REP byte (30_encoding.md R191, R193). -/
abbrev Plain (p : List Prefix) : Prop := Prefix.lock ∉ p ∧ Prefix.repne ∉ p ∧ Prefix.rep ∉ p

/-- `s` after an instruction that goes on to the next one, apart from what the instruction writes: EIP after its bytes
(10_state.md R23), RF clear (60 R336), single step noted when TF was 1 (60 R334). -/
def State.completed (s : State) (i : Instr) : State :=
  { s with eip := s.eipPlus i.length, eflags := clearRf s.eflags, pending := { s.pending with singleStep := s.tf } }

/-- The addresses of the page entries a walk for a linear address uses (20_memory.md R163). A walk changes only bits 5 and 6
of an entry, which are in its first byte (R167). -/
def State.walkEntries (s : State) (lin : Word32) : List Word32 :=
  s.pdeAddr lin :: if s.maps4M (s.phys32 (s.pdeAddr lin)) then [] else [pteAddr (s.phys32 (s.pdeAddr lin)) lin]

/-- The bytes whose accessed and dirty bits an access to linear addresses may set. -/
def State.entriesOf (s : State) (lins : List Word32) : List Word32 := if s.paging then lins.flatMap s.walkEntries else []

/-- `t` is `s` after accesses to linear addresses before anything is stored: only the TLB, the accessed and dirty bits of page
entries, the debug conditions met and the count of free values may differ. -/
structure Accessed (s t : State) (lins : List Word32) : Prop where
  rest : t = { s with tlb := t.tlb, mem := t.mem, pending := t.pending, draws := t.draws }
  bytes : ∀ a, a ∉ s.entriesOf lins → t.physByte a = s.physByte a
  /-- Bits 5 and 6 may be set, no other bit changes and none is cleared (20_memory.md R167). -/
  bits : ∀ a, s.physByte a ||| (t.physByte a &&& 0x60) = t.physByte a

/-- The linear addresses of the six bytes of a table image (40 R220, R223). -/
def State.tableAddrs (s : State) (p : List Prefix) (o : RmOp) : List Word32 :=
  addrsFrom (s.linear (operandSegment p o) (s.offset o)) 2
    ++ addrsFrom (s.linear (operandSegment p o) (secondOffset o (s.offset o))) 4

/-- The linear address of a memory operand. -/
def State.operandAddr (s : State) (p : List Prefix) (o : RmOp) : Word32 := s.linear (operandSegment p o) (s.offset o)

/-- `w` is the value of an r/m16 source and `t` the state after it is read: the low half of a register, or the two bytes of an
accessible and aligned memory operand (30_encoding.md R205). -/
def WordSource (p : List Prefix) (o : RmOp) (s : State) (w : Word16) (t : State) : Prop :=
  match o with
  | .reg r => w = low16 (s.reg r) ∧ t = s
  | o => ∃ b0 b1 pas, operandBytes (operandSegment p o) false (s.offset o) 2 s = .ok (pas, t)
      ∧ s.misaligned (s.operandAddr p o) 2 = false ∧ t.bytesAt pas = [b0, b1] ∧ w = word16 b0 b1

/-- The 16 bits at a physical address. -/
def State.phys16 (s : State) (pa : Word32) : Word16 := word16 (s.physByte pa) (s.physByte (pa + 1))

/-- A cache loaded from a paragraph number: base sixteen times `sel`, limit 64 KB with G = 0, the other attributes as they were
(10_state.md R45; log 38). -/
def SegCache.atParagraph (c : SegCache) (sel : Word16) : SegCache :=
  { base := zext32 sel <<< 4, limit := 0xFFFF, attr := c.attr &&& 0x7FF }

/-- CS after a far transfer to `sel` in Real Mode and Virtual-86 Mode (10_state.md R45, R46; 44 R301). -/
def State.realCs (s : State) (sel : Word16) : Segs :=
  { s.segs with cs := { sel := sel, cache := s.segs.cs.cache.atParagraph sel } }

/-- The offset `k` bytes below SP. -/
def State.belowSp (s : State) (k : Word16) : Word32 := zext32 (low16 s.gpr.esp - k)

/-- `t` is `s` after vector `v` is delivered in Real Mode with saved EIP `saved`: three words pushed, the flags IF, TF, AC, NT,
VM and RF cleared, CS and EIP from the table entry (60 R355, R358, R361). -/
structure RealEntry (v : Byte) (saved : Word32) (s t : State) : Prop where
  registers : t = { s with
    eip := zext32 (s.phys16 (s.idtr.base + zext32 v * 4))
    segs := s.realCs (s.phys16 (s.idtr.base + zext32 v * 4 + 2))
    eflags := s.eflags &&& ~~~ 0x00074300
    gpr := { s.gpr with esp := withLow16 s.gpr.esp (low16 s.gpr.esp - 6) }
    dr7 := if v = 1 then setBit s.dr7 13 false else s.dr7
    mem := t.mem }
  flags : t.phys16 (s.linear .ss (s.belowSp 2)) = low16 s.eflags
  cs : t.phys16 (s.linear .ss (s.belowSp 4)) = s.segs.cs.sel
  eip : t.phys16 (s.linear .ss (s.belowSp 6)) = low16 saved
  bytes : ∀ a, a ∉ addrsFrom (s.linear .ss (s.belowSp 2)) 2 ++ addrsFrom (s.linear .ss (s.belowSp 4)) 2
    ++ addrsFrom (s.linear .ss (s.belowSp 6)) 2 → t.physByte a = s.physByte a

/-- Vector `v` can be delivered in Real Mode: its entry is inside the table and no device's, no push wraps inside a word, and the
three words lie in ordinary memory (60 R355). -/
def State.realReady (s : State) (v : Byte) : Prop :=
  s.pe = false ∧ v.toNat * 4 + 3 ≤ s.idtr.limit.toNat ∧ s.deviceAt (addrsFrom (s.idtr.base + zext32 v * 4) 4) = false
    ∧ low16 s.gpr.esp ≠ 1 ∧ low16 s.gpr.esp ≠ 3 ∧ low16 s.gpr.esp ≠ 5
    ∧ s.ram (addrsFrom (s.linear .ss (s.belowSp 2)) 2 ++ addrsFrom (s.linear .ss (s.belowSp 4)) 2
        ++ addrsFrom (s.linear .ss (s.belowSp 6)) 2) = true

/-- The descriptor that a selector names lies outside its table, the GDT or an LDT that may not be there (20_memory.md R150). -/
abbrev State.outsideTable (s : State) (sel : Word16) : Prop :=
  if bit sel 2 then bit s.ldtr.cache.attr 7 = false ∨ s.ldtr.cache.byteLimit < 8 * (field sel 3 13).toNat + 7
  else s.gdtr.limit.toNat < 8 * (field sel 3 13).toNat + 7

/-- The bytes of the context that a task switch saves in the outgoing TSS `d`, with their offsets (20_memory.md R157, R159; of a 16-bit
TSS: log 45). -/
def State.savedSlots (s : State) (d : SegCache) (eip eflags : Word32) : List (Word32 × List Byte) :=
  if d.isTss16 then
  [(0x0E, bytes16 (low16 eip)), (0x10, bytes16 (low16 eflags)), (0x12, bytes16 (low16 s.gpr.eax)), (0x14, bytes16 (low16 s.gpr.ecx)),
   (0x16, bytes16 (low16 s.gpr.edx)), (0x18, bytes16 (low16 s.gpr.ebx)), (0x1A, bytes16 (low16 s.gpr.esp)),
   (0x1C, bytes16 (low16 s.gpr.ebp)), (0x1E, bytes16 (low16 s.gpr.esi)), (0x20, bytes16 (low16 s.gpr.edi)),
   (0x22, bytes16 s.segs.es.sel), (0x24, bytes16 s.segs.cs.sel), (0x26, bytes16 s.segs.ss.sel), (0x28, bytes16 s.segs.ds.sel)]
  else
  [(0x20, bytes32 eip), (0x24, bytes32 eflags), (0x28, bytes32 s.gpr.eax), (0x2C, bytes32 s.gpr.ecx), (0x30, bytes32 s.gpr.edx),
   (0x34, bytes32 s.gpr.ebx), (0x38, bytes32 s.gpr.esp), (0x3C, bytes32 s.gpr.ebp), (0x40, bytes32 s.gpr.esi),
   (0x44, bytes32 s.gpr.edi), (0x48, bytes16 s.segs.es.sel), (0x4C, bytes16 s.segs.cs.sel), (0x50, bytes16 s.segs.ss.sel),
   (0x54, bytes16 s.segs.ds.sel), (0x58, bytes16 s.segs.fs.sel), (0x5C, bytes16 s.segs.gs.sel)]

/-- The bytes from the first to the last of those, and of a 32-bit TSS the reserved ones between. -/
def savedBytes (d : SegCache) : List Word32 :=
  if d.isTss16 then addrsFrom (d.base + 0x0E) 0x1C else addrsFrom (d.base + 0x20) 0x3E

/-- The context in the TSS `d` (20_memory.md R157, R158). A 16-bit TSS holds no more than the low halves of the registers, of which
`upper` gives the upper halves, and no CR3, FS, GS and T bit (log 45). -/
def State.contextAt (s : State) (d : SegCache) (upper : BitVec 3 → Word16) : TaskContext :=
  let b := d.base
  if d.isTss16 then
  { cr3 := s.cr3, eip := zext32 (s.phys16 (b + 0x0E)), eflags := zext32 (s.phys16 (b + 0x10))
    gpr := { eax := upper 0 ++ s.phys16 (b + 0x12), ecx := upper 1 ++ s.phys16 (b + 0x14), edx := upper 2 ++ s.phys16 (b + 0x16)
             ebx := upper 3 ++ s.phys16 (b + 0x18), esp := upper 4 ++ s.phys16 (b + 0x1A), ebp := upper 5 ++ s.phys16 (b + 0x1C)
             esi := upper 6 ++ s.phys16 (b + 0x1E), edi := upper 7 ++ s.phys16 (b + 0x20) }
    es := s.phys16 (b + 0x22), cs := s.phys16 (b + 0x24), ss := s.phys16 (b + 0x26), ds := s.phys16 (b + 0x28), fs := 0, gs := 0
    ldt := s.phys16 (b + 0x2A), t := false }
  else
  { cr3 := s.phys32 (b + 0x1C), eip := s.phys32 (b + 0x20), eflags := s.phys32 (b + 0x24)
    gpr := { eax := s.phys32 (b + 0x28), ecx := s.phys32 (b + 0x2C), edx := s.phys32 (b + 0x30), ebx := s.phys32 (b + 0x34)
             esp := s.phys32 (b + 0x38), ebp := s.phys32 (b + 0x3C), esi := s.phys32 (b + 0x40), edi := s.phys32 (b + 0x44) }
    es := s.phys16 (b + 0x48), cs := s.phys16 (b + 0x4C), ss := s.phys16 (b + 0x50), ds := s.phys16 (b + 0x54)
    fs := s.phys16 (b + 0x58), gs := s.phys16 (b + 0x5C), ldt := s.phys16 (b + 0x60)
    t := bit (s.physByte (b + s.part.tssTByte)) s.part.tssTBit.toNat }

/-- `u` is `s` with the outgoing context saved in the TSS `d`, and no other byte changed. -/
structure ContextSaved (d : SegCache) (eip eflags : Word32) (s u : State) : Prop where
  rest : u = { s with mem := u.mem }
  saved : ∀ o bs, (o, bs) ∈ s.savedSlots d eip eflags → u.bytesAt (addrsFrom (d.base + o) bs.length) = bs
  bytes : ∀ a, (∀ o bs, (o, bs) ∈ s.savedSlots d eip eflags → a ∉ addrsFrom (d.base + o) bs.length) → u.physByte a = s.physByte a

/-- The task of context `c` runs in `t`, which the switch from `s` leaves (20_memory.md R157, R159; 44 R303, R304). -/
structure ContextLoaded (c : TaskContext) (nests : Bool) (s t : State) : Prop where
  gpr : t.gpr = c.gpr
  cr3 : t.cr3 = c.cr3 &&& 0xFFFFF018
  eip : t.eip = if t.codeSize = .s32 then c.eip else zext32 (low16 c.eip)
  eflags : t.eflags = if nests then s.fixImage c.eflags ||| 0x00004000 else s.fixImage c.eflags
  segs : t.segs.es.sel = c.es ∧ t.segs.cs.sel = c.cs ∧ t.segs.ss.sel = c.ss ∧ t.segs.ds.sel = c.ds ∧ t.segs.fs.sel = c.fs
    ∧ t.segs.gs.sel = c.gs
  /-- In Virtual-86 Mode the caches are loaded from paragraph numbers (10_state.md R46). -/
  paragraphs : t.vm = true → ∀ r, (t.seg r).cache = (s.seg r).cache.atParagraph (t.seg r).sel
  ldtr : t.ldtr.sel = c.ldt
  debug : t.pending.taskSwitch = c.t

/-- What an event pushes on the handler's stack of its own level, in order: EFLAGS, CS, EIP, the error code (60 R356). -/
def Event.slots (ev : Event) (s : State) : List Word32 :=
  [setBit s.eflags 16 ev.rf, zext32 s.segs.cs.sel, ev.eip] ++ ev.code.toList

/-- The two double words at a physical address as a descriptor (20_memory.md R149). -/
def State.descriptorAt (s : State) (pa : Word32) : SegCache := descriptorOf (s.phys32 pa) (s.phys32 (pa + 4))

/-- The two double words at a physical address as a gate (60 R357). -/
def State.gateAt (s : State) (pa : Word32) : Gate := gateOf (s.phys32 pa) (s.phys32 (pa + 4))

/-- The state in which instruction fetch begins when no event is taken: no debug condition left from before. -/
def State.beginNext (s : State) : State := { s with pending := .none }

/-- The state in which a step that reaches the next instruction fetches it: a machine check that raises no exception has been
loaded (60 R329). -/
def State.fetchState (s : State) : State :=
  match s.env.machineCheck with
  | some m => (s.loadMachineCheck m).beginNext.afterInstrHits
  | none => s.beginNext.afterInstrHits

/-- `t` is `s` after the counters have moved at the end of a step: the time-stamp counter, the two event counters and the count of free
values may differ (92 D12; 43 R285, R288; log 11). -/
structure CountersMoved (s t : State) : Prop where
  rest : t = { s with msr := { s.msr with tsc := t.msr.tsc, ctr0 := t.msr.ctr0, ctr1 := t.msr.ctr1 }, draws := t.draws }

/-- Nothing stands before the next instruction: no reset, no shutdown or wait, no machine check, no debug trap, no NMI and no
interrupt to take, no instruction breakpoint (60 R353). -/
def State.calm (s : State) : Prop :=
  s.env.reset = false ∧ s.activity = .running ∧ s.env.machineCheck = none ∧ s.pending.raises = false
    ∧ s.nmiReady = false ∧ s.intrReady = none ∧ s.beginNext.instrHits = 0

end Sys2Proof.Machine
end

