-- ==== Sys2Proof/Certificates/Slice0/Obligations.lean ====
section
/-! DEFINITION. The statements for the provers, from the numbered rules of spec/. A docstring names the rule or the log entry
a statement formalises. -/

open Sys2Proof Sys2Proof.Machine

/-! ### Encoding (30_encoding.md) -/

/-- The bytes of every well-formed instruction decode to it, whatever follows them. -/
def Obligations.DecodeEncodeAgree : Prop :=
  ∀ (d : OpSize) (i : Instr) (rest : List Byte), i.wellFormed d = true → decode d (encode i ++ rest) = .ok (i, rest)

/-- What the decoder accepts is a well-formed instruction, and the bytes it took are exactly that instruction's encoding: no
bit of an accepted encoding is ignored. -/
def Obligations.DecodeIsExact : Prop :=
  ∀ (d : OpSize) (bs rest : List Byte) (i : Instr), decode d bs = .ok (i, rest) →
    i.wellFormed d = true ∧ bs = encode i ++ rest

/-- No proper front part of a well-formed instruction's encoding is an instruction or an invalid encoding: the decoder asks
for more bytes. -/
def Obligations.EncodingsArePrefixFree : Prop :=
  ∀ (d : OpSize) (i : Instr) (n : Nat), i.wellFormed d = true → n < (encode i).length →
    decode d ((encode i).take n) = .error .truncated

/-- Words written out from the encodings of 30_encoding.md R196 to R208 and of the examples of each rule decode to the
instruction they stand for. -/
def Obligations.KnownWordsDecode : Prop :=
  decode .s32 [0x0F, 0x01, 0x15, 0x00, 0x10, 0x00, 0x00] = .ok (.lgdt [] (.mem32 (.direct 0x1000)), [])
    ∧ decode .s16 [0x0F, 0x01, 0x1E, 0x06, 0x10] = .ok (.lidt [] (.mem16 (.direct 0x1006)), [])
    ∧ decode .s32 [0x0F, 0x00, 0xD0] = .ok (.lldt [] (.reg .eax), [])
    ∧ decode .s16 [0x0F, 0x20, 0xC2] = .ok (.movFromCr [] 3 0 .edx, [])
    ∧ decode .s32 [0x0F, 0x23, 0xFB] = .ok (.movToDr [] 3 7 .ebx, [])
    ∧ decode .s32 [0x0F, 0x26, 0xF3] = .ok (.movToTr [] 3 6 .ebx, [])
    ∧ decode .s16 [0x0F, 0xA2] = .ok (.cpuid [], [])
    ∧ decode .s32 [0x9A, 0x00, 0x00, 0x00, 0x00, 0x30, 0x00] = .ok (.callPtr [] (.ptr32 0 0x0030), [])
    ∧ decode .s32 [0xD9, 0xD0] = .ok (.esc [] 1 2 (.reg .eax), [])

/-- The encodings of 30_encoding.md R210 that no row of the table matches are invalid, whatever follows: 0F 00 with reg 6 or 7, 0F
01 with reg 5, and 0F 25 and 0F 27; so is 0F 01 with reg 7 and mod 3 (R196). With paging off and such bytes at CS:EIP, after any
prefix bytes and all inside the code segment, the fetch raises #UD; the step takes the exception in which the fetch ends. -/
def Obligations.InvalidEncodings : Prop :=
  (∀ (d : OpSize) (m : Byte) (rest : List Byte), (field m 3 3 = 6 ∨ field m 3 3 = 7) →
      decode d (0x0F :: 0x00 :: m :: rest) = .error .invalidOpcode)
    ∧ (∀ (d : OpSize) (m : Byte) (rest : List Byte), (field m 3 3 = 5 ∨ (field m 3 3 = 7 ∧ field m 6 2 = 3)) →
      decode d (0x0F :: 0x01 :: m :: rest) = .error .invalidOpcode)
    ∧ (∀ (d : OpSize) (rest : List Byte), decode d (0x0F :: 0x25 :: rest) = .error .invalidOpcode
      ∧ decode d (0x0F :: 0x27 :: rest) = .error .invalidOpcode)
    ∧ (∀ s : State, s.decodeStop .invalidOpcode = .exc .ud)
    ∧ (∀ (s : State) (p : List Prefix) (m : Byte) (op : List Byte),
      (op = [0x0F, 0x00, m] ∧ (field m 3 3 = 6 ∨ field m 3 3 = 7))
        ∨ (op = [0x0F, 0x01, m] ∧ (field m 3 3 = 5 ∨ (field m 3 3 = 7 ∧ field m 6 2 = 3)))
        ∨ op = [0x0F, 0x25] ∨ op = [0x0F, 0x27] →
      let bs := p.map Prefix.byte ++ op
      s.paging = false → s.codeInLimit bs.length = true → s.deviceAt (addrsFrom s.fetchAddr bs.length) = false →
      s.bytesAt (addrsFrom s.fetchAddr bs.length) = bs → fetchInstr s = .error (.exc .ud))
    ∧ ∀ (s : State) (e : Exn), s.calm → fetchInstr s.beginNext.afterInstrHits = .error (.exc e) →
      step s = ticked (takeException e s.beginNext.afterInstrHits)

/-! ### The step -/

/-- When nothing stands before the next instruction, the step is `exec` of the instruction that the fetch decodes, in the
state the fetch leaves, followed by the counters' free advance, which changes nothing but the time-stamp counter and the two event
counters and does not follow a fault or a refusal (92 D12; log 11). EIP is moved by `exec` itself. -/
def Obligations.StepRunsDecoded : Prop :=
  (∀ (s t : State) (i : Instr), s.calm → fetchInstr s.beginNext.afterInstrHits = .ok (i, t) → step s = ticked (exec i t))
    ∧ (∀ s : State, ticked (.next s) = .next s.tick ∧ CountersMoved s s.tick)
    ∧ ∀ (f : Fault) (r : Refusal), ticked (.fault f) = .fault f ∧ ticked (.refused r) = .refused r

/-- The fetch reads the instruction whose encoding stands at `CS.cache.base + EIP` (10_state.md R22), for every well-formed
instruction inside the code segment, and with paging off it changes nothing; with paging on the bytes it decodes are those of the
addresses the translation gives, read after the walks, and it changes only the TLB and sets accessed bits of page entries. An
instruction of more than 15 bytes, all inside the code segment, raises #UD with a LOCK byte or in a form that raises it, else #NM
where it raises that, else #GP(0) (30_encoding.md R190, R193, R210; 60 R353 item 8; log 25). -/
def Obligations.FetchReadsInstruction : Prop :=
  (∀ (s : State) (i : Instr), s.paging = false → i.wellFormed s.codeSize = true → s.codeInLimit i.size = true →
      s.deviceAt (addrsFrom s.fetchAddr i.size) = false →
      s.bytesAt (addrsFrom s.fetchAddr i.size) = encode i → fetchInstr s = .ok (i, s))
    ∧ (∀ (s t : State) (i : Instr), Memory.wf s.mem = true → fetchInstr s = .ok (i, t) →
      i.wellFormed s.codeSize = true ∧ s.codeInLimit i.size = true
        ∧ ∃ (n : Nat) (pas : List Word32) (rest : List Byte), translateRange (s.access false) s.fetchAddr n s = .ok (pas, t)
          ∧ t.bytesAt pas = encode i ++ rest ∧ Accessed s t (addrsFrom s.fetchAddr n))
    ∧ ∀ (s : State) (i : Instr), s.paging = false → i.operandsFit s.codeSize = true → 15 < i.size →
      s.codeInLimit i.size = true → s.deviceAt (addrsFrom s.fetchAddr i.size) = false →
      s.bytesAt (addrsFrom s.fetchAddr i.size) = encode i →
      fetchInstr s = .error (.exc (if .lock ∈ i.prefixes ∨ s.invalidForm i = true then .ud
        else if s.unavailable i = true then .nm else .gp 0))

/-- Between two instructions (60 R329, R346, R351, R353): a machine check fills MSR 00h and 01h and, with CR4.MCE = 1, is
delivered before anything else, otherwise the step goes on as without it; a pending debug trap comes before an NMI, an NMI before a
maskable interrupt; a maskable interrupt is accepted exactly when IF = 1 and delivered with the EIP of the next instruction; with
none to accept, the step goes on with the next instruction, or waits (44 R309); an NMI holds off further ones.
A pending single step, data breakpoint or task trap is reported in DR6 and no flag of DR6 is lost
(60 R332, R334, R335). The model's choices: the debug traps are reported in one #DB (log 13), a request is gone once it is accepted
(log 16), a waiting processor takes steps in which only the counters move (log 17), and at the end of each step they move, and
nothing else does (log 11). -/
def Obligations.EventsBetweenInstructions : Prop :=
  ∀ s : State, s.env.reset = false → s.activity ≠ .shutdown →
    (∀ t : State, ticked (.next t) = .next t.tick ∧ CountersMoved t t.tick) ∧
    (∀ m, s.env.machineCheck = some m →
      let u := { s with msr := { s.msr with mcAddr := m.addr, mcType := m.kind }, env := { s.env with machineCheck := none } }
      (bit s.cr4 6 = true → step s = ticked (takeEvent { vector := 18, code := none, eip := s.eip, rf := s.rf, software := false,
                                                         external := true } { u with activity := .running }))
      ∧ (bit s.cr4 6 = false → step s = step u))
    ∧ (s.env.machineCheck = none →
      (s.pending.raises = true → ∃ u : State, step s = ticked (takeEvent (s.between 1 false) u)
        ∧ u = { s with dr6 := u.dr6, pending := .none, draws := u.draws } ∧ s.dr6 &&& u.dr6 = s.dr6
        ∧ (s.pending.singleStep = true → bit u.dr6 14 = true) ∧ (s.pending.taskSwitch = true → bit u.dr6 15 = true)
        ∧ ∀ n, n < 4 → bit s.pending.hits n = true → bit u.dr6 n = true)
      ∧ (s.pending.raises = false → s.env.nmi = true → s.nmiBlocked = false →
        step s = ticked (takeEvent (s.between 2 true)
          { s with env := { s.env with nmi := false }, nmiBlocked := true, activity := .running }))
      ∧ (s.pending.raises = false → (s.env.nmi = false ∨ s.nmiBlocked = true) →
        (∀ v, s.env.intr = some v → bit s.eflags 9 = true → step s = ticked (takeEvent (s.between v true)
          { s with env := { s.env with intr := none }, activity := .running }))
        ∧ (s.env.intr = none ∨ bit s.eflags 9 = false →
          (s.activity = .waiting → step s = .next s.tick)
          ∧ (s.activity = .running → step s = ticked (runNext s.beginNext)))))

/-- Deliveries that fault (60 R354, R363). A vector outside the table, an entry that is no gate, a gate whose DPL is below CPL for
INT3 raise #GP, a gate that is not present #NP, with the code of the entry (EXT with an external event). An exception met while
another is delivered takes its place, or makes a double fault when both are contributory or a page fault meets either kind; that
the EIP and CR2 are those of the state in which delivery began, with the first one's CR2 or DR6, is the model's (log 15). An
exception whose vector, and that of #DF, lie outside the table ends in shutdown, and a processor that is shut down takes no step
until a reset, or an NMI that is not held off, which it takes as it would between two instructions (logs 16, 17). A reset (70 R390)
sets every register to the part's `RESET_STATE`, TR6, TR7 and the model-specific registers included, makes every TLB entry invalid,
ends shutdown and whatever was pending, and keeps memory, the other inputs and the part (log 36). -/
def Obligations.ShutdownRules : Prop :=
  (∀ (ev : Event) (s : State), s.pe = true →
      let code := zext32 ev.vector * 8 + 2 + (if ev.external then 1 else 0)
      (s.idtr.limit.toNat < ev.vector.toNat * 8 + 7 → deliver ev s = .error (.exc (.gp code)))
      ∧ (ev.vector.toNat * 8 + 7 ≤ s.idtr.limit.toNat → s.paging = false →
        s.deviceAt (addrsFrom (s.idtr.base + zext32 ev.vector * 8) 8) = false →
        let g := s.gateAt (s.idtr.base + zext32 ev.vector * 8)
        let gate := g.access &&& 0x1F ∈ [(5 : Byte), 6, 7, 0xE, 0xF]
        (¬ gate → deliver ev s = .error (.exc (.gp code)))
        ∧ (gate → ev.software = true → field g.access 5 2 < s.cpl → deliver ev s = .error (.exc (.gp code)))
        ∧ (gate → (ev.software = true → s.cpl ≤ field g.access 5 2) → bit g.access 7 = false →
          deliver ev s = .error (.exc (.np code)))))
    ∧ (∀ (e f : Exn) (s : State), e.faultClass ≠ .double → deliver (e.event (s.raised e)) (s.raised e) = .error (.exc f) →
      takeException e s =
        if (e.faultClass = .contributory ∧ f.faultClass = .contributory)
            ∨ (e.faultClass = .page ∧ (f.faultClass = .contributory ∨ f.faultClass = .page))
          then takeException .df ((s.raised e).raised f) else takeException f (s.raised e))
    ∧ (∀ (e : Exn) (s : State), s.pe = true → s.idtr.limit.toNat < e.vector.toNat * 8 + 7 → s.idtr.limit.toNat < 71 →
      takeException e s = .next (s.raised e).shutDown)
    ∧ (∀ (e : Exn) (s : State), s.pe = false → s.idtr.limit.toNat < e.vector.toNat * 4 + 3 → s.idtr.limit.toNat < 35 →
      takeException e s = .next (s.raised e).shutDown)
    ∧ (∀ s : State, s.activity = .shutdown → s.env.reset = false → s.nmiReady = false → step s = .fault .shutdown)
    ∧ (∀ s : State, s.activity = .shutdown → s.env.reset = false → s.env.nmi = true → s.nmiBlocked = false →
      step s = ticked (takeEvent (s.between 2 true)
        { s with env := { s.env with nmi := false }, nmiBlocked := true, activity := .running }))
    ∧ ∀ s : State, s.env.reset = true → let r := s.part.resetState
      ∃ t, step s = .next t
        ∧ t = { s with
            gpr := r.gpr, eip := r.eip, eflags := r.eflags, segs := r.segs, gdtr := r.gdtr, idtr := r.idtr, ldtr := r.ldtr, tr := r.tr
            cr0 := r.cr0, cr2 := r.cr2, cr3 := r.cr3, cr4 := r.cr4
            dr0 := r.dr0, dr1 := r.dr1, dr2 := r.dr2, dr3 := r.dr3, dr6 := r.dr6, dr7 := r.dr7
            tr6 := r.tr6, tr7 := r.tr7, tlb := t.tlb, msr := r.msr, cplField := r.cpl
            nmiBlocked := false, activity := .running, pending := .none, env := { s.env with reset := false } }
        ∧ t.tlb.length = 32 ∧ ∀ e ∈ t.tlb, e.v = false

/-! ### Reset (70_reset_and_hazards.md R390 to R392; 10_state.md R125) -/

/-- The registers that 70 R390 gives a value, after reset of a part whose `RESET_STATE` is the table of 10_state.md R125; the
attribute bits of the caches and the registers R392 leaves open are not mentioned. Of any part, the registers are those of its
`RESET_STATE`, every TLB entry is invalid and memory has its initial contents. The first instruction is fetched from physical
0xFFFFFFF0 in Real Mode (R391). -/
def Obligations.ResetRegisters : Prop :=
  ∀ p : Part, let s := State.resetOf p
    let r := p.resetState
    (∀ e ∈ s.tlb, e.v = false) ∧ s.mem = p.memInit ∧ s.gpr.edx = p.signature
      ∧ s.gpr = r.gpr ∧ s.eip = r.eip ∧ s.eflags = r.eflags ∧ s.segs = r.segs ∧ s.gdtr = r.gdtr ∧ s.idtr = r.idtr ∧ s.ldtr = r.ldtr
      ∧ s.tr = r.tr ∧ s.cr0 = r.cr0 ∧ s.cr2 = r.cr2 ∧ s.cr3 = r.cr3 ∧ s.cr4 = r.cr4 ∧ s.dr0 = r.dr0 ∧ s.dr1 = r.dr1 ∧ s.dr2 = r.dr2
      ∧ s.dr3 = r.dr3 ∧ s.dr6 = r.dr6 ∧ s.dr7 = r.dr7 ∧ s.tr6 = r.tr6 ∧ s.tr7 = r.tr7 ∧ s.msr = r.msr ∧ s.cplField = r.cpl
      ∧ (p.resetState = .default →
        s.cr0 = 0x60000010 ∧ s.eflags = 0x00000002 ∧ s.eip = 0x0000FFF0
        ∧ s.segs.cs.sel = 0xF000 ∧ s.segs.cs.cache.base = 0xFFFF0000 ∧ s.segs.cs.cache.limit = 0xFFFF
        ∧ (∀ r, r ≠ SegReg.cs → (s.seg r).sel = 0 ∧ (s.seg r).cache.base = 0 ∧ (s.seg r).cache.limit = 0xFFFF)
        ∧ s.gdtr = { base := 0, limit := 0xFFFF } ∧ s.idtr = { base := 0, limit := 0xFFFF }
        ∧ s.ldtr.sel = 0 ∧ s.ldtr.cache.base = 0 ∧ s.ldtr.cache.limit = 0xFFFF
        ∧ s.tr.sel = 0 ∧ s.tr.cache.base = 0 ∧ s.tr.cache.limit = 0xFFFF
        ∧ s.cr2 = 0 ∧ s.cr3 = 0 ∧ s.cr4 = 0 ∧ s.dr0 = 0 ∧ s.dr1 = 0 ∧ s.dr2 = 0 ∧ s.dr3 = 0 ∧ s.dr6 = 0 ∧ s.dr7 = 0
        ∧ (∀ r, r ≠ Gpr.edx → s.reg r = 0) ∧ s.msr.tsc = 0
        ∧ s.pe = false ∧ s.paging = false ∧ s.cpl = 0 ∧ s.codeSize = .s16 ∧ s.fetchAddr = 0xFFFFFFF0)

/-- The state after reset satisfies the invariants that every step keeps, for every part whose `RESET_STATE` is the table of
10_state.md R125 and whose initial memory is in canonical form. -/
def Obligations.ResetIsLegal : Prop :=
  ∀ p : Part, p.resetState = .default → Memory.wf p.memInit = true → (State.resetOf p).legal

/-! ### Invariants of every step -/

/-- Memory keeps its one canonical form: addresses strictly rising inside the 32-bit space, no entry that an unlisted address
reads as (the model's choice: log 2). -/
def Obligations.StepKeepsCanonicalMemory : Prop :=
  ∀ s t : State, Memory.wf s.mem = true → step s = .next t → Memory.wf t.mem = true

/-- The bits that 10_state.md draws as constants in EFLAGS, CR0, CR3, CR4, DR6, DR7, TR6 and TR7 read as drawn after every step, and
EIP[31:16] is 0 in 16-bit code, Real Mode and Virtual-86 Mode (R22, R36, R68, R73, R81, R93, R98, R104, R112, R113), on a part whose
`RESET_STATE` is so too. -/
def Obligations.StepKeepsFixedBits : Prop :=
  ∀ s t : State, (State.resetOf s.part).fixedBits → s.fixedBits → step s = .next t → t.fixedBits

/-- PG = 1 or VM = 1 never occurs without PE = 1, nor NW = 1 with CD = 0 (41 R243; 60 R374, R375), on a part whose `RESET_STATE` is
so too. -/
def Obligations.StepKeepsLegalMode : Prop :=
  ∀ s t : State, (State.resetOf s.part).legalMode → s.legalMode → step s = .next t → t.legalMode

/-- The TLB keeps its 32 entries (10_state.md R111). No step changes the arguments of R6, which the model holds as the field `part`
(the model's choice: log 1). -/
def Obligations.StepKeepsTlbSizeAndPart : Prop :=
  ∀ s t : State, step s = .next t → t.part = s.part ∧ (s.tlb.length = 32 → t.tlb.length = 32)

/-- The processor only ever sets flags of DR6: only a reset and a MOV to DR6 (number 6, or its alias 4) may clear one. -/
def Obligations.DebugStatusOnlySet : Prop :=
  ∀ s t : State, s.env.reset = false → step s = .next t →
    (∀ (p : List Prefix) (mod : BitVec 2) (n : BitVec 3) (r : Gpr) (u : State),
      fetchInstr s.fetchState = .ok (.movToDr p mod n r, u) → debugAlias n ≠ 6) →
    s.dr6 &&& t.dr6 = s.dr6

/-- Nothing but CLTS, LMSW or MOV to CR0 clears CR0.TS, reset apart (44 R307). -/
def Obligations.TaskSwitchedClearedOnlyBy : Prop :=
  ∀ s t : State, s.env.reset = false → s.ts = true → step s = .next t →
    (∀ (i : Instr) (u : State), fetchInstr s.fetchState = .ok (i, u) →
      (∀ p, i ≠ .clts p) ∧ (∀ p o, i ≠ .lmsw p o) ∧ ∀ p mod r, i ≠ .movToCr p mod 0 r) →
    t.ts = true

/-- Whatever instruction runs at a privilege level other than 0, with the exception it may take, GDTR, IDTR, CR4, DR0 to DR3, TR6,
TR7 and the model-specific registers stay, CR0 stays or has TS set by a task switch, DR7 loses at most its local enables and GD (60
R377). -/
def Obligations.UserCodeKeepsSystemRegisters : Prop :=
  ∀ (i : Instr) (s t : State), s.cpl ≠ 0 → exec i s = .next t →
    t.gdtr = s.gdtr ∧ t.idtr = s.idtr ∧ t.cr4 = s.cr4 ∧ t.dr0 = s.dr0 ∧ t.dr1 = s.dr1 ∧ t.dr2 = s.dr2 ∧ t.dr3 = s.dr3
      ∧ t.tr6 = s.tr6 ∧ t.tr7 = s.tr7 ∧ t.msr = s.msr ∧ (t.cr0 = s.cr0 ∨ t.cr0 = setBit s.cr0 3 true)
      ∧ s.dr7 &&& ~~~ 0x00002055 = t.dr7 &&& ~~~ 0x00002055 ∧ t.dr7 &&& s.dr7 = t.dr7

/-! ### Memory (20_memory.md) -/

/-- An access through a segment register. Its offset is the effective address of 30_encoding.md R200 to R203 in the segment of R200
to R204. It is allowed when the segment is present, has the right, and its limit, in bytes or 4 KB units, up or down, holds every
byte; in Real Mode and Virtual-86 Mode when no offset is above 0xFFFF (20_memory.md R144, R149, R152). Outside it raises #GP(0), or
#SS(0) through SS. With paging off the physical addresses are the linear ones, `cache.base + offset` (R152, R160), and the bytes of a
device are refused (log 29); with paging on only the TLB changes, and accessed and dirty bits are set. That of several segment
overrides the last one wins is the model's choice (log 21; 30_encoding.md R191 and R204 give no order). -/
def Obligations.OperandAccess : Prop :=
  (∀ (r : SegReg) (w : Bool) (off : Word32) (n : Nat) (s : State),
    (s.segAllows r w off n = false → operandBytes r w off n s = .error (.exc (if r = .ss then .ss 0 else .gp 0)))
    ∧ (0 < n → s.prot = false → (s.segAllows r w off n = true ↔ off.toNat + n ≤ 0x10000))
    ∧ (0 < n → s.prot = true →
      let c := (s.seg r).cache
      let lim := if bit c.attr 11 then c.limit.toNat * 4096 + 4095 else c.limit.toNat
      (s.segAllows r w off n = true ↔ bit c.attr 7 = true ∧ bit c.attr 4 = true
        ∧ (w = true → bit c.attr 3 = false ∧ bit c.attr 1 = true)
        ∧ (w = false → bit c.attr 3 = false ∨ bit c.attr 1 = true)
        ∧ if bit c.attr 3 = false ∧ bit c.attr 2 = true
            then lim < off.toNat ∧ off.toNat + n ≤ (if bit c.attr 10 then 2 ^ 32 else 2 ^ 16)
            else off.toNat + n ≤ lim + 1))
    ∧ (s.segAllows r w off n = true → s.paging = false →
      (s.deviceAt (addrsFrom ((s.seg r).cache.base + off) n) = true → operandBytes r w off n s = .error (.refused .deviceAccess))
      ∧ (s.deviceAt (addrsFrom ((s.seg r).cache.base + off) n) = false → ∃ t, operandBytes r w off n s
          = .ok (addrsFrom ((s.seg r).cache.base + off) n, t) ∧ t.mem = s.mem ∧ t.tlb = s.tlb))
    ∧ ∀ (pas : List Word32) (t : State), Memory.wf s.mem = true → operandBytes r w off n s = .ok (pas, t) →
        pas.length = n ∧ s.deviceAt pas = false ∧ Accessed s t (addrsFrom ((s.seg r).cache.base + off) n))
    ∧ ∀ (s : State) (x y : Gpr) (sc : BitVec 2) (b : Base16) (d8 : BitVec 8) (d16 : BitVec 16) (d32 : BitVec 32),
      let sum : Word16 := match b with
        | .bxsi => low16 s.gpr.ebx + low16 s.gpr.esi | .bxdi => low16 s.gpr.ebx + low16 s.gpr.edi
        | .bpsi => low16 s.gpr.ebp + low16 s.gpr.esi | .bpdi => low16 s.gpr.ebp + low16 s.gpr.edi
        | .si => low16 s.gpr.esi | .di => low16 s.gpr.edi | .bp => low16 s.gpr.ebp | .bx => low16 s.gpr.ebx
      let index : Word32 := if y = .esp then 0 else s.reg y * BitVec.ofNat 32 (2 ^ sc.toNat)
      s.offset (.mem16 (.direct d16)) = zext32 d16 ∧ s.offset (.mem16 (.base b .none)) = zext32 sum
      ∧ s.offset (.mem16 (.base b (.d8 d8))) = zext32 (sum + d8.signExtend 16)
      ∧ s.offset (.mem16 (.base b (.d16 d16))) = zext32 (sum + d16)
      ∧ s.offset (.mem32 (.direct d32)) = d32 ∧ s.offset (.mem32 (.base x .none)) = s.reg x
      ∧ s.offset (.mem32 (.base x (.d8 d8))) = s.reg x + d8.signExtend 32
      ∧ s.offset (.mem32 (.base x (.d32 d32))) = s.reg x + d32
      ∧ s.offset (.mem32 (.sib sc y x .none)) = s.reg x + index
      ∧ s.offset (.mem32 (.sib sc y x (.d8 d8))) = s.reg x + index + d8.signExtend 32
      ∧ s.offset (.mem32 (.sib sc y x (.d32 d32))) = s.reg x + index + d32
      ∧ s.offset (.mem32 (.sibNoBase sc y d32)) = index + d32
      ∧ (∀ e : Disp16, operandSegment [] (.mem16 (.base b e)) = if b ∈ [Base16.bpsi, .bpdi, .bp] then .ss else .ds)
      ∧ (∀ e : Disp32, operandSegment [] (.mem32 (.base x e)) = (if x ∈ [Gpr.ebp, .esp] then .ss else .ds)
        ∧ operandSegment [] (.mem32 (.sib sc y x e)) = if x ∈ [Gpr.ebp, .esp] then .ss else .ds)
      ∧ operandSegment [] (.mem16 (.direct d16)) = .ds ∧ operandSegment [] (.mem32 (.direct d32)) = .ds
      ∧ operandSegment [] (.mem32 (.sibNoBase sc y d32)) = .ds
      ∧ ∀ (p : List Prefix) (q : Prefix) (o : RmOp), operandSegment (p ++ [q]) o = match q with
          | .seg r => r
          | _ => operandSegment p o

/-- A translation with paging on (R163 to R169). A hit in the TLB gives the entry's page and changes nothing; a miss, and a write
through an entry whose dirty attribute is 0, walks the directory and the table, gives the table entry's page, or that of a directory
entry which maps 4 MB, sets the accessed bits, and the dirty bit for a write, and changes no other byte; an entry that is not present
and a right the table of R166 does not give raise #PF with the linear address and the error code of R168. (The code of a reserved bit
is the model's: log 35. An entry in read-only memory keeps its bits: log 2. That a walk made for D = 0 puts its result in the slot of
the hit and leaves the other entries is the model's choice: log 10.) -/
def Obligations.PageTranslation : Prop :=
  ∀ (acc : Access) (lin : Word32) (s : State), s.paging = true →
    let kind : Word32 := (if acc.write then 2 else 0) + (if acc.user then 4 else 0)
    let fault := fun c : Word32 => (Except.error (.exc (.pf lin (c + kind))) : Except Stop (Word32 × State))
    let page := field lin 12 20
    let pdeAt := (s.cr3 &&& 0xFFFFF000) + 4 * zext32 (field lin 22 10)
    let pde := s.phys32 pdeAt
    let pteAt := (pde &&& 0xFFFFF000) + 4 * zext32 (field lin 12 10)
    let pte := s.phys32 pteAt
    let big := s.pse = true ∧ bit pde 7 = true
    let large := s.pageAllows acc (bit pde 2) (bit pde 1) = true
    let small := s.pageAllows acc (bit pde 2 && bit pte 2) (bit pde 1 && bit pte 1) = true
    (∀ u w, s.pageAllows acc u w = true ↔
      (acc.user = true → u = true ∧ (acc.write = true → w = true))
        ∧ (acc.user = false → acc.write = true → bit s.cr0 16 = true → w = true))
    ∧ (∀ b, s.tlbHits page = [b] →
      let e := s.tlbEntry b page
      (s.pageAllows acc e.u e.w = false → translate acc lin s = fault 1)
      ∧ (s.pageAllows acc e.u e.w = true → (acc.write = true → e.d = true) →
        translate acc lin s = .ok (e.phys ++ field lin 0 12, s))
      ∧ (s.pageAllows acc e.u e.w = true → acc.write = true → e.d = false → s.tlb.length = 32 → Memory.wf s.mem = true →
        s.deviceAt (addrsFrom pdeAt 4) = false → bit pde 0 = true → ¬ big → s.deviceAt (addrsFrom pteAt 4) = false →
        bit pte 0 = true → small →
        ∃ t, translate acc lin s = .ok (field pte 12 20 ++ field lin 0 12, t) ∧ Accessed s t [lin]
          ∧ (s.ram (addrsFrom pteAt 4) = true → bit (t.phys32 pteAt) 6 = true)
          ∧ t.tlb = s.tlb.set (s.tlbSlot b page) { lin := page, v := true, d := true, u := bit pde 2 && bit pte 2,
                                                   w := bit pde 1 && bit pte 1, phys := field pte 12 20 })
      ∧ (s.pageAllows acc e.u e.w = true → acc.write = true → e.d = false → s.tlb.length = 32 → Memory.wf s.mem = true →
        s.deviceAt (addrsFrom pdeAt 4) = false → bit pde 0 = true → big → field pde 12 10 = 0 → large →
        ∃ t, translate acc lin s = .ok (field pde 22 10 ++ field lin 0 22, t) ∧ Accessed s t [lin]
          ∧ (s.ram (addrsFrom pdeAt 4) = true → bit (t.phys32 pdeAt) 6 = true)
          ∧ t.tlb = s.tlb.set (s.tlbSlot b page) { lin := page, v := true, d := true, u := bit pde 2, w := bit pde 1,
                                                   phys := field pde 22 10 ++ field lin 12 10 }))
    ∧ (s.tlbHits page = [] → s.deviceAt (addrsFrom pdeAt 4) = false →
      (bit pde 0 = false → translate acc lin s = fault 0)
      ∧ (bit pde 0 = true → big →
        (field pde 12 10 ≠ 0 → translate acc lin s = fault 9)
        ∧ (field pde 12 10 = 0 → ¬ large → translate acc lin s = fault 1)
        ∧ (field pde 12 10 = 0 → large → Memory.wf s.mem = true →
          ∃ t, translate acc lin s = .ok (field pde 22 10 ++ field lin 0 22, t) ∧ Accessed s t [lin]
            ∧ (s.ram (addrsFrom pdeAt 4) = true →
              bit (t.phys32 pdeAt) 5 = true ∧ (acc.write = true → bit (t.phys32 pdeAt) 6 = true))))
      ∧ (bit pde 0 = true → ¬ big → s.deviceAt (addrsFrom pteAt 4) = false →
        (bit pte 0 = false → translate acc lin s = fault 0)
        ∧ (bit pte 0 = true → ¬ small → translate acc lin s = fault 1)
        ∧ (bit pte 0 = true → small → Memory.wf s.mem = true →
          ∃ t, translate acc lin s = .ok (field pte 12 20 ++ field lin 0 12, t) ∧ Accessed s t [lin]
            ∧ (s.ram (addrsFrom pdeAt 4) = true → bit (t.phys32 pdeAt) 5 = true)
            ∧ (s.ram (addrsFrom pteAt 4) = true →
              bit (t.phys32 pteAt) 5 = true ∧ (acc.write = true → bit (t.phys32 pteAt) 6 = true)))))

/-- The alignment check (R138) with the spec's default rule: an access of `n` bytes that passes the segment and page checks raises
#AC(0) exactly when CR0.AM, EFLAGS.AC, PE are 1, CPL is 3 and the linear address is no multiple of `n` (word and double word
operands); otherwise a read gives the bytes and a write stores them, low byte first. -/
def Obligations.AlignmentChecked : Prop :=
  ∀ (r : SegReg) (off : Word32) (n v : Nat) (s t : State) (pas : List Word32), n = 2 ∨ n = 4 → s.part.acRule = .natural →
    let bad := bit s.cr0 18 = true ∧ bit s.eflags 18 = true ∧ s.pe = true ∧ s.cpl = 3 ∧ (s.linear r off).toNat % n ≠ 0
    (operandBytes r false off n s = .ok (pas, t) →
      (bad → lmemRead r off n s = .error (.exc .ac))
      ∧ (¬ bad → lmemRead r off n s = .ok (littleEndian (t.bytesAt pas), t)))
    ∧ (operandBytes r true off n s = .ok (pas, t) →
      (bad → lmemWrite r off n v s = .error (.exc .ac))
      ∧ (¬ bad → lmemWrite r off n v s = .ok ((), t.storeBytes pas (toBytes n v))))

/-- Which accesses meet a breakpoint condition (10_state.md R99 to R101; 60 R331, R336, R338). A data access of `n` bytes touches a
watched location of 1, 2 or 4 bytes exactly when some byte of the one is a byte of the other, the low bits of the breakpoint
address taken as 0. Condition n is enabled by Ln or Gn; with R/Wn = 01 a write that touches the location meets it, with 11 a read
too, with 00 and LENn = 00 the instruction whose first byte is at DRn, with 10 and CR4.DE = 1 no access of this spec. With RF = 0
an instruction that meets an enabled condition is not executed and raises #DB, which reports it; with RF = 1 none does. A data
condition met is noted for the #DB after the instruction. (Fields that leave the match open are left out: U5, U6.) -/
def Obligations.BreakpointOverlap : Prop :=
  (∀ (dr lin : Word32) (l : BitVec 2) (n : Nat), l ≠ 2 → 0 < n → n ≤ 8 →
    (touches dr l lin n = true ↔
      ∃ j k : Nat, j < n ∧ k < (if l = 0 then 1 else if l = 1 then 2 else 4)
        ∧ lin + BitVec.ofNat 32 j
          = (dr &&& ~~~ (if l = 0 then (0 : Word32) else if l = 1 then 1 else 3)) + BitVec.ofNat 32 k))
    ∧ (∀ (s : State) (n k j : Nat) (w : Bool) (lin : Word32), n < 4 →
      let rw := field s.dr7 (16 + 4 * n) 2
      let len := field s.dr7 (18 + 4 * n) 2
      let dr := match n with | 0 => s.dr0 | 1 => s.dr1 | 2 => s.dr2 | _ => s.dr3
      let enabled := bit s.dr7 (2 * n) = true ∨ bit s.dr7 (2 * n + 1) = true
      (rw ≠ 2 → len ≠ 2 → (s.bpHit k n (.data w lin j) = true ↔
        enabled ∧ (rw = 3 ∨ (rw = 1 ∧ w = true)) ∧ touches dr len lin j = true))
      ∧ (rw = 0 → len = 0 → (s.bpHit k n (.instr lin) = true ↔ enabled ∧ lin = dr))
      ∧ (rw = 1 ∨ rw = 3 → s.bpHit k n (.instr lin) = false)
      ∧ (rw = 2 → s.de = true → s.bpHit k n (.instr lin) = false ∧ s.bpHit k n (.data w lin j) = false))
    ∧ ∀ s : State, (s.rf = true → s.instrHits = 0)
      ∧ (s.rf = false → ∀ n, n < 4 → bit s.instrHits n = s.bpHit s.draws n (.instr s.fetchAddr))
      ∧ (s.instrHits ≠ 0 → ∃ f : Word32, runNext s = takeException (.db f true) s.afterInstrHits
          ∧ ∀ n, n < 4 → bit s.instrHits n = true → bit f n = true)
      ∧ ∀ (w : Bool) (lin : Word32) (j : Nat), ∃ t, noteData w lin j s = .ok ((), t)
          ∧ t = { s with pending := t.pending, draws := t.draws }
          ∧ ∀ n, n < 4 → bit t.pending.hits n = (bit s.pending.hits n || s.bpHit s.draws n (.data w lin j))

/-- With paging off a selector's descriptor is the eight bytes at the table's base plus eight times its index, in the GDT or, with
TI = 1, in the LDT, with the fields of R149; a selector outside the table, or into an LDT that is not there, raises the exception
the caller names (R150). A segment register loaded from a descriptor takes its fields in the cache, and the accessed bit of the
descriptor in memory is set if it was 0, where no other bit changes (R151, R178). (That the cache then holds the accessed bit as 1 is
the model's choice: log 46.) -/
def Obligations.DescriptorFetched : Prop :=
  (∀ (sel : Word16) (bad : Exn) (s : State),
    (selTi sel = false → s.gdtr.limit.toNat < 8 * (selIndex sel).toNat + 7 → readDescriptor sel bad s = .error (.exc bad))
    ∧ (selTi sel = true → s.ldtr.cache.present = false ∨ s.ldtr.cache.byteLimit < 8 * (selIndex sel).toNat + 7 →
      readDescriptor sel bad s = .error (.exc bad))
    ∧ (s.paging = false → selTi sel = false → 8 * (selIndex sel).toNat + 7 ≤ s.gdtr.limit.toNat →
      let at' := s.gdtr.base + BitVec.ofNat 32 (8 * (selIndex sel).toNat)
      s.deviceAt (addrsFrom at' 8) = false → readDescriptor sel bad s = .ok (s.descriptorAt at', s))
    ∧ (s.paging = false → selTi sel = true → s.ldtr.cache.present = true →
      8 * (selIndex sel).toNat + 7 ≤ s.ldtr.cache.byteLimit →
      let at' := s.ldtr.cache.base + BitVec.ofNat 32 (8 * (selIndex sel).toNat)
      s.deviceAt (addrsFrom at' 8) = false → readDescriptor sel bad s = .ok (s.descriptorAt at', s)))
    ∧ (∀ lo hi : Word32, (descriptorOf lo hi).base = field hi 24 8 ++ field hi 0 8 ++ field lo 16 16
      ∧ (descriptorOf lo hi).limit = field hi 16 4 ++ field lo 0 16
      ∧ (descriptorOf lo hi).attr = field hi 20 4 ++ field hi 8 8)
    ∧ ∀ (r : SegReg) (sel : Word16) (d : SegCache) (s : State),
      (bit d.attr 0 = true → loadSeg r sel d s = .ok ((), { s with segs := s.segs.set r { sel := sel, cache := d } }))
      ∧ (bit d.attr 0 = false → s.paging = false → Memory.wf s.mem = true → s.ram [s.descriptorAddr sel + 5] = true →
        ∃ t, loadSeg r sel d s = .ok ((), t)
          ∧ t = { s with segs := s.segs.set r { sel := sel, cache := { d with attr := d.attr ||| 1 } }, mem := t.mem }
          ∧ t.physByte (s.descriptorAddr sel + 5) = s.physByte (s.descriptorAddr sel + 5) ||| 1
          ∧ ∀ a, a ≠ s.descriptorAddr sel + 5 → t.physByte a = s.physByte a)

/-- The word or double word an instruction pushes goes to the bytes below the stack pointer through SS and no other byte
changes; a pop reads the bytes at the stack pointer; with a 16-bit stack pointer bits 31:16 of ESP stay (44 R301, R302;
20_memory.md R144). -/
def Obligations.StackSlots : Prop :=
  ∀ (z : OpSize) (v : Word32) (s t : State) (pas : List Word32), Memory.wf s.mem = true →
    (operandBytes .ss true (s.pushOffset z) (slotBytes z) s = .ok (pas, t) →
      s.misaligned (s.linear .ss (s.pushOffset z)) (slotBytes z) = false →
      ∃ u, push z v s = .ok ((), u) ∧ u = { t with gpr := u.gpr, mem := u.mem }
        ∧ (s.ram pas = true → u.bytesAt pas = (match z with | .s16 => bytes16 (low16 v) | .s32 => bytes32 v))
        ∧ (∀ a, a ∉ pas → u.physByte a = t.physByte a)
        ∧ u.gpr = { s.gpr with esp := match s.stackSize with
            | .s32 => s.gpr.esp - BitVec.ofNat 32 (slotBytes z)
            | .s16 => withLow16 s.gpr.esp (low16 s.gpr.esp - BitVec.ofNat 16 (slotBytes z)) })
    ∧ (operandBytes .ss false s.stackTop (slotBytes z) s = .ok (pas, t) →
      s.misaligned (s.linear .ss s.stackTop) (slotBytes z) = false →
      pop z s = .ok (BitVec.ofNat 32 (littleEndian (t.bytesAt pas)), { t with
        gpr := { s.gpr with esp := match s.stackSize with
            | .s32 => s.gpr.esp + BitVec.ofNat 32 (slotBytes z)
            | .s16 => withLow16 s.gpr.esp (low16 s.gpr.esp + BitVec.ofNat 16 (slotBytes z)) } }))

/-! ### Descriptor-table instructions (40_descriptor_table_instructions.md) -/

/-- SGDT and SIDT store the limit and the base of their register in the six bytes of the operand, low byte first; with 16-bit
operand size the sixth byte is any value (U2); no other byte and no register changes (R222, R223, R225). -/
def Obligations.TableStored : Prop :=
  ∀ (p : List Prefix) (o : RmOp) (s t : State) (pas : List Word32) (i : Instr) (g : TableReg),
    (i = .sgdt p o ∧ g = s.gdtr) ∨ (i = .sidt p o ∧ g = s.idtr) →
    Plain p → isRegister o = false → Memory.wf s.mem = true → imageBytes p o true s = .ok (pas, t) →
    ∃ (u : State) (b : Byte), exec i s = .next u
      ∧ u = { t.completed i with mem := u.mem, draws := u.draws } ∧ Accessed s t (s.tableAddrs p o)
      ∧ (s.operandSize p = .s32 → b = field g.base 24 8)
      ∧ (s.ram pas = true → u.bytesAt pas = bytes16 g.limit ++ [field g.base 0 8, field g.base 8 8, field g.base 16 8, b])
      ∧ ∀ a, a ∉ pas → u.physByte a = t.physByte a

/-- LGDT and LIDT at level 0 and in Real Mode load the limit and the base from the six bytes of the operand, with 16-bit operand
size only 24 bits of the base, and change no other register (R220, R223, R224). With paging off those six bytes are two at the
operand's address and four at its offset plus 2, modulo the address size. -/
def Obligations.TableLoaded : Prop :=
  (∀ (p : List Prefix) (o : RmOp) (s t : State) (pas : List Word32) (b0 b1 b2 b3 b4 b5 : Byte),
    Plain p → isRegister o = false → s.cpl = 0 → Memory.wf s.mem = true → imageBytes p o false s = .ok (pas, t) →
    t.bytesAt pas = [b0, b1, b2, b3, b4, b5] →
    let g : TableReg :=
      { limit := word16 b0 b1
        base := match s.operandSize p with | .s16 => word32 b2 b3 b4 0 | .s32 => word32 b2 b3 b4 b5 }
    exec (.lgdt p o) s = .next { t.completed (.lgdt p o) with gdtr := g }
      ∧ exec (.lidt p o) s = .next { t.completed (.lidt p o) with idtr := g } ∧ Accessed s t (s.tableAddrs p o))
    ∧ ∀ (p : List Prefix) (o : RmOp) (w : Bool) (s : State), s.paging = false →
      let r := operandSegment p o
      let off := s.offset o
      let next : Word32 := match o with | .mem16 _ => zext32 (low16 (off + 2)) | _ => off + 2
      let pas := addrsFrom ((s.seg r).cache.base + off) 2 ++ addrsFrom ((s.seg r).cache.base + next) 4
      s.segAllows r w off 2 = true → s.segAllows r w next 4 = true → s.deviceAt pas = false →
      s.misaligned ((s.seg r).cache.base + off) 6 = false →
      pas = s.tableAddrs p o ∧ ∃ t, imageBytes p o w s = .ok (pas, t)
        ∧ t = { s with pending := t.pending, draws := t.draws }

/-- GDTR stored by SGDT with 32-bit operand size and loaded again by LGDT from the same operand is GDTR as it was, whatever it
held in between, and so IDTR by SIDT and LIDT (paging off, an operand in ordinary memory; R220 to R225, R231). -/
def Obligations.TableRoundTrip : Prop :=
  ∀ (p : List Prefix) (o : RmOp) (s t : State) (pas : List Word32),
    Plain p → isRegister o = false → s.cpl = 0 → s.paging = false → Memory.wf s.mem = true → s.operandSize p = .s32 →
    imageBytes p o true s = .ok (pas, t) → s.ram pas = true →
    (∃ u, exec (.sgdt p o) s = .next u
      ∧ ∀ g : TableReg, ∃ v, exec (.lgdt p o) { u with gdtr := g } = .next v ∧ v.gdtr = s.gdtr)
    ∧ ∃ u, exec (.sidt p o) s = .next u
      ∧ ∀ g : TableReg, ∃ v, exec (.lidt p o) { u with idtr := g } = .next v ∧ v.idtr = s.idtr

/-- SLDT, STR (Protected Mode) and SMSW (any mode and level) with a register destination: the low half gets the selector or
CR0[15:0]; with 16-bit operand size the upper half stays, with 32-bit operand size it is any value (U3); nothing else changes
(R227, R229; 41 R248). -/
def Obligations.WordStoredInRegister : Prop :=
  ∀ (p : List Prefix) (r : Gpr) (s : State) (i : Instr) (w : Word16),
    (i = .sldt p (.reg r) ∧ s.prot = true ∧ w = s.ldtr.sel) ∨ (i = .str p (.reg r) ∧ s.prot = true ∧ w = s.tr.sel)
      ∨ (i = .smsw p (.reg r) ∧ w = field s.cr0 0 16) →
    Plain p →
    (s.operandSize p = .s16 → exec i s = .next { s.completed i with gpr := s.gpr.set r (field (s.reg r) 16 16 ++ w) })
    ∧ (s.operandSize p = .s32 → ∃ (h : Word16) (k : Nat),
        exec i s = .next { s.completed i with gpr := s.gpr.set r (h ++ w), draws := k })

/-- SLDT, STR and SMSW with a memory destination store two bytes there, whatever the operand size, and change no other byte and
no register (R227, R229; 41 R248). -/
def Obligations.WordStoredInMemory : Prop :=
  ∀ (p : List Prefix) (o : RmOp) (s t : State) (pas : List Word32) (i : Instr) (w : Word16),
    (i = .sldt p o ∧ s.prot = true ∧ w = s.ldtr.sel) ∨ (i = .str p o ∧ s.prot = true ∧ w = s.tr.sel)
      ∨ (i = .smsw p o ∧ w = field s.cr0 0 16) →
    Plain p → isRegister o = false → Memory.wf s.mem = true →
    operandBytes (operandSegment p o) true (s.offset o) 2 s = .ok (pas, t) → s.misaligned (s.operandAddr p o) 2 = false →
    ∃ u, exec i s = .next u ∧ u = { t.completed i with mem := u.mem } ∧ Accessed s t (addrsFrom (s.operandAddr p o) 2)
      ∧ (s.ram pas = true → u.bytesAt pas = bytes16 w) ∧ ∀ a, a ∉ pas → u.physByte a = t.physByte a

/-- LLDT at level 0 in Protected Mode (R226): a null selector empties LDTR (to a cache of zeros, the model's form of invalid: log
31); one with TI = 1, outside the GDT, or of a descriptor that is no LDT, raises #GP with the selector; a descriptor that is not
present raises #NP; any other is loaded into LDTR, and nothing else changes. -/
def Obligations.LldtLoads : Prop :=
  ∀ (p : List Prefix) (o : RmOp) (s t : State) (w : Word16),
    Plain p → s.prot = true → s.cpl = 0 → WordSource p o s w t →
    (field w 2 14 = 0 → exec (.lldt p o) s = .next { t.completed (.lldt p o) with ldtr := .null w })
    ∧ (bit w 2 = true ∨ (field w 2 14 ≠ 0 ∧ s.gdtr.limit.toNat < 8 * (field w 3 13).toNat + 7) →
      exec (.lldt p o) s = takeException (.gp (zext32 (w &&& 0xFFFC))) s)
    ∧ ∀ (d : SegCache) (u : State), field w 2 14 ≠ 0 → bit w 2 = false →
        readDescriptor w (.gp (selCode w)) t = .ok (d, u) →
        (¬ (bit d.attr 4 = false ∧ field d.attr 0 4 = 2) →
          exec (.lldt p o) s = takeException (.gp (zext32 (w &&& 0xFFFC))) s)
        ∧ (bit d.attr 4 = false → field d.attr 0 4 = 2 → bit d.attr 7 = false →
          exec (.lldt p o) s = takeException (.np (zext32 (w &&& 0xFFFC))) s)
        ∧ (bit d.attr 4 = false → field d.attr 0 4 = 2 → bit d.attr 7 = true →
          exec (.lldt p o) s = .next { u.completed (.lldt p o) with ldtr := { sel := w, cache := d } })

/-- LTR at level 0 in Protected Mode (R228): a null selector raises #GP(0); one with TI = 1, outside the GDT, or of a descriptor that
is no available TSS, raises #GP with the selector; a TSS that is not present raises #NP; any other is loaded into TR and marked busy
there and, paging off and the byte in ordinary memory, in bit 1 of the descriptor's byte 5, where no other byte changes. -/
def Obligations.LtrLoads : Prop :=
  ∀ (p : List Prefix) (o : RmOp) (s t : State) (w : Word16),
    Plain p → s.prot = true → s.cpl = 0 → WordSource p o s w t →
    (field w 2 14 = 0 → exec (.ltr p o) s = takeException (.gp 0) s)
    ∧ (bit w 2 = true ∨ (field w 2 14 ≠ 0 ∧ s.gdtr.limit.toNat < 8 * (field w 3 13).toNat + 7) →
      exec (.ltr p o) s = takeException (.gp (zext32 (w &&& 0xFFFC))) s)
    ∧ ∀ (d : SegCache) (u : State), field w 2 14 ≠ 0 → bit w 2 = false →
        readDescriptor w (.gp (selCode w)) t = .ok (d, u) →
        (¬ (bit d.attr 4 = false ∧ (field d.attr 0 4 = 1 ∨ field d.attr 0 4 = 9)) →
          exec (.ltr p o) s = takeException (.gp (zext32 (w &&& 0xFFFC))) s)
        ∧ (bit d.attr 4 = false → field d.attr 0 4 = 1 ∨ field d.attr 0 4 = 9 →
          (bit d.attr 7 = false → exec (.ltr p o) s = takeException (.np (zext32 (w &&& 0xFFFC))) s)
          ∧ (bit d.attr 7 = true → ∀ v, markBusy w true u = .ok ((), v) → exec (.ltr p o) s
              = .next { v.completed (.ltr p o) with tr := { sel := w, cache := { d with attr := d.attr ||| 2 } } })
          ∧ (bit d.attr 7 = true → s.paging = false → Memory.wf s.mem = true → s.ram [s.descriptorAddr w + 5] = true →
              ∃ v, exec (.ltr p o) s = .next v
              ∧ v = { t.completed (.ltr p o) with tr := { sel := w, cache := { d with attr := d.attr ||| 2 } }, mem := v.mem }
              ∧ v.physByte (s.descriptorAddr w + 5) = s.physByte (s.descriptorAddr w + 5) ||| 2
              ∧ ∀ a, a ≠ s.descriptorAddr w + 5 → v.physByte a = s.physByte a))

/-- Forms that are not there raise #UD: a register operand of SGDT, SIDT, LGDT, LIDT and the far CALL (30_encoding.md R210), SLDT,
STR, LLDT, LTR outside Protected Mode (40 R221), and RDMSR, WRMSR, RDTSC, RDPMC, CPUID and MOV of CR4 on a part whose `FEATURES`
lacks them (60 R324). `invalidForm`, by which the fetch of an over-long instruction goes, holds of exactly these forms and of a MOV
of another register that does not exist (41 R244; 42 R262), each of which raises #UD; `unavailable` of exactly WAIT with MP = 1 and
TS = 1 and ESC with EM = 1 or TS = 1 (60 R325). -/
def Obligations.IllegalForms : Prop :=
  (∀ (p : List Prefix) (r : Gpr) (s : State), Plain p →
      exec (.sgdt p (.reg r)) s = takeException .ud s ∧ exec (.sidt p (.reg r)) s = takeException .ud s
      ∧ exec (.lgdt p (.reg r)) s = takeException .ud s ∧ exec (.lidt p (.reg r)) s = takeException .ud s
      ∧ exec (.callMem p (.reg r)) s = takeException .ud s)
    ∧ (∀ (p : List Prefix) (o : RmOp) (s : State), Plain p → (s.pe = false ∨ s.vm = true) →
      exec (.sldt p o) s = takeException .ud s ∧ exec (.str p o) s = takeException .ud s
      ∧ exec (.lldt p o) s = takeException .ud s ∧ exec (.ltr p o) s = takeException .ud s)
    ∧ (∀ (p : List Prefix) (m : BitVec 2) (r : Gpr) (s : State), Plain p →
      let f := s.part.features
      (f.rdmsr = false → exec (.rdmsr p) s = takeException .ud s) ∧ (f.wrmsr = false → exec (.wrmsr p) s = takeException .ud s)
      ∧ (f.rdtsc = false → exec (.rdtsc p) s = takeException .ud s)
      ∧ (f.rdpmc = false → exec (.rdpmc p) s = takeException .ud s)
      ∧ (f.cpuid = false → exec (.cpuid p) s = takeException .ud s)
      ∧ (f.cr4 = false →
        exec (.movFromCr p m 4 r) s = takeException .ud s ∧ exec (.movToCr p m 4 r) s = takeException .ud s))
    ∧ (∀ (i : Instr) (s : State), Plain i.prefixes → s.invalidForm i = true → exec i s = takeException .ud s)
    ∧ (∀ (i : Instr) (s : State), let f := s.part.features
      s.invalidForm i = true ↔
        (∃ p r, i = .sgdt p (.reg r) ∨ i = .sidt p (.reg r) ∨ i = .lgdt p (.reg r) ∨ i = .lidt p (.reg r) ∨ i = .callMem p (.reg r))
        ∨ ((s.pe = false ∨ s.vm = true) ∧ ∃ p o, i = .sldt p o ∨ i = .str p o ∨ i = .lldt p o ∨ i = .ltr p o)
        ∨ (∃ p m n r, (i = .movFromCr p m n r ∨ i = .movToCr p m n r) ∧ (n ∈ [1, 5, 6, 7] ∨ (n = 4 ∧ f.cr4 = false)))
        ∨ (∃ p m n r, (i = .movFromDr p m n r ∨ i = .movToDr p m n r) ∧ (n = 4 ∨ n = 5) ∧ bit s.cr4 3 = true ∧ f.de = true)
        ∨ ∃ p, (i = .rdmsr p ∧ f.rdmsr = false) ∨ (i = .wrmsr p ∧ f.wrmsr = false) ∨ (i = .rdtsc p ∧ f.rdtsc = false)
          ∨ (i = .rdpmc p ∧ f.rdpmc = false) ∨ (i = .cpuid p ∧ f.cpuid = false))
    ∧ ∀ (i : Instr) (s : State), s.unavailable i = true ↔
      (∃ p, i = .wait p ∧ bit s.cr0 1 = true ∧ bit s.cr0 3 = true)
        ∨ ∃ p m n o, i = .esc p m n o ∧ (bit s.cr0 2 = true ∨ bit s.cr0 3 = true)

/-- A LOCK byte before any instruction of the table raises #UD (30_encoding.md R193). -/
def Obligations.LockRaisesUd : Prop :=
  ∀ (i : Instr) (s : State), Prefix.lock ∈ i.prefixes → exec i s = takeException .ud s

/-- The level-0 instructions at another level, Virtual-86 Mode included, raise #GP(0) (60 R377; 40 R221; 41 R242; 42 R263). -/
def Obligations.PrivilegedForms : Prop :=
  ∀ (p : List Prefix) (o : RmOp) (m : BitVec 2) (n : BitVec 3) (r : Gpr) (s : State), Plain p → s.cpl ≠ 0 →
    exec (.clts p) s = takeException (.gp 0) s ∧ exec (.lmsw p o) s = takeException (.gp 0) s
    ∧ (isRegister o = false →
      exec (.lgdt p o) s = takeException (.gp 0) s ∧ exec (.lidt p o) s = takeException (.gp 0) s)
    ∧ (s.vm = false → exec (.lldt p o) s = takeException (.gp 0) s ∧ exec (.ltr p o) s = takeException (.gp 0) s)
    ∧ (s.hasCr n = true →
      exec (.movFromCr p m n r) s = takeException (.gp 0) s ∧ exec (.movToCr p m n r) s = takeException (.gp 0) s)
    ∧ (s.noDebugReg n = false →
      exec (.movFromDr p m n r) s = takeException (.gp 0) s ∧ exec (.movToDr p m n r) s = takeException (.gp 0) s)
    ∧ (n = 6 ∨ n = 7 →
      exec (.movFromTr p m n r) s = takeException (.gp 0) s ∧ exec (.movToTr p m n r) s = takeException (.gp 0) s)
    ∧ (s.part.features.rdmsr = true → exec (.rdmsr p) s = takeException (.gp 0) s)
    ∧ (s.part.features.wrmsr = true → exec (.wrmsr p) s = takeException (.gp 0) s)

/-! ### Control-register instructions (41_control_register_instructions.md) -/

/-- MOV r32, CRn at level 0 and in Real Mode copies the control register and changes nothing else (R240). -/
def Obligations.ControlRegisterRead : Prop :=
  ∀ (p : List Prefix) (m : BitVec 2) (r : Gpr) (s : State), Plain p → s.cpl = 0 →
    exec (.movFromCr p m 0 r) s = .next { s.completed (.movFromCr p m 0 r) with gpr := s.gpr.set r s.cr0 }
    ∧ exec (.movFromCr p m 2 r) s = .next { s.completed (.movFromCr p m 2 r) with gpr := s.gpr.set r s.cr2 }
    ∧ exec (.movFromCr p m 3 r) s = .next { s.completed (.movFromCr p m 3 r) with gpr := s.gpr.set r s.cr3 }
    ∧ (s.part.features.cr4 = true →
      exec (.movFromCr p m 4 r) s = .next { s.completed (.movFromCr p m 4 r) with gpr := s.gpr.set r s.cr4 })

/-- MOV to or from CR1, CR5, CR6 or CR7 raises #UD, and so does CR4 on a part without it (R244). -/
def Obligations.NoSuchControlRegister : Prop :=
  ∀ (p : List Prefix) (m : BitVec 2) (n : BitVec 3) (r : Gpr) (s : State), Plain p →
    (n = 1 ∨ n = 5 ∨ n = 6 ∨ n = 7 ∨ (n = 4 ∧ s.part.features.cr4 = false)) →
    exec (.movFromCr p m n r) s = takeException .ud s ∧ exec (.movToCr p m n r) s = takeException .ud s

/-- `WriteCR0` (R243): PG = 1 with PE = 0, and NW = 1 with CD = 0, raise #GP(0); otherwise the ten flags take the value's bits,
ET stays 1, the other bits read 0; a change of PG or PE empties the TLB, and nothing else changes, no segment register's
cache above all; EIP goes on to the next instruction and has 16 bits where the new mode has (10_state.md R22). Entering Protected
Mode begins at level 0 (70 R402; log 9). -/
def Obligations.ControlRegister0Written : Prop :=
  ∀ (p : List Prefix) (m : BitVec 2) (r : Gpr) (s : State), Plain p → s.cpl = 0 →
    let v := s.reg r
    let i := Instr.movToCr p m 0 r
    let bad := (bit v 31 = true ∧ bit v 0 = false) ∨ (bit v 30 = false ∧ bit v 29 = true)
    (bad → exec i s = takeException (.gp 0) s)
    ∧ (¬ bad → ∃ t, exec i s = .next t
        ∧ t = { s.completed i with eip := t.eip, cr0 := t.cr0, tlb := t.tlb, cplField := t.cplField }
        ∧ t.eip = (match t.codeSize with | .s32 => s.eipPlus i.length | .s16 => zext32 (low16 (s.eipPlus i.length)))
        ∧ (∀ k, k ∈ [0, 1, 2, 3, 5, 16, 18, 29, 30, 31] → bit t.cr0 k = bit v k) ∧ bit t.cr0 4 = true
        ∧ (∀ k, k ∉ [0, 1, 2, 3, 4, 5, 16, 18, 29, 30, 31] → bit t.cr0 k = false)
        ∧ (bit v 31 ≠ s.pg ∨ bit v 0 ≠ s.pe → ∀ e ∈ t.tlb, e.v = false)
        ∧ (bit v 31 = s.pg → bit v 0 = s.pe → t.tlb = s.tlb)
        ∧ t.cplField = if s.pe = false ∧ bit v 0 = true then 0 else s.cplField)

/-- `WriteCR3` (R245): the base, PCD and PWT are taken, the other bits read back as 0, every TLB entry becomes invalid whatever
the value, no value raises an exception, and nothing else changes. -/
def Obligations.ControlRegister3Written : Prop :=
  ∀ (p : List Prefix) (m : BitVec 2) (r : Gpr) (s : State), Plain p → s.cpl = 0 →
    ∃ t, exec (.movToCr p m 3 r) s = .next t
      ∧ t = { s.completed (.movToCr p m 3 r) with cr3 := t.cr3, tlb := t.tlb }
      ∧ field t.cr3 12 20 = field (s.reg r) 12 20 ∧ bit t.cr3 4 = bit (s.reg r) 4 ∧ bit t.cr3 3 = bit (s.reg r) 3
      ∧ field t.cr3 5 7 = 0 ∧ field t.cr3 0 3 = 0 ∧ (∀ e ∈ t.tlb, e.v = false) ∧ t.tlb.length = s.tlb.length

/-- MOV to CR2 stores all 32 bits. MOV to CR4 raises #GP(0) when it sets a bit that is reserved, bit 5 and bits 31 to 11 on every
part (R246), or that the part does not implement (60 R323; 10_state.md R93, R94; D17); otherwise it stores the value, and empties
the TLB when PSE or PGE changes (R246). -/
def Obligations.ControlRegisters2And4Written : Prop :=
  ∀ (p : List Prefix) (m : BitVec 2) (r : Gpr) (s : State), Plain p → s.cpl = 0 →
    let v := s.reg r
    let f := s.part.features
    let has := fun k : Nat => match k with
      | 0 => f.vme | 1 => f.pvi | 2 => f.tsd | 3 => f.de | 4 => f.pse | 6 => f.mce | 7 => f.pge | 8 => f.pce
      | 9 => f.osfxsr | 10 => f.osxmmexcpt | _ => false
    exec (.movToCr p m 2 r) s = .next { s.completed (.movToCr p m 2 r) with cr2 := v }
    ∧ (f.cr4 = true →
      ((∃ k, bit v k = true ∧ has k = false) → exec (.movToCr p m 4 r) s = takeException (.gp 0) s)
      ∧ ((∀ k, bit v k = true → has k = true) → ∃ t, exec (.movToCr p m 4 r) s = .next t
          ∧ t = { s.completed (.movToCr p m 4 r) with cr4 := v, tlb := t.tlb }
          ∧ (bit v 4 ≠ bit s.cr4 4 ∨ bit v 7 ≠ bit s.cr4 7 → ∀ e ∈ t.tlb, e.v = false)
          ∧ (bit v 4 = bit s.cr4 4 → bit v 7 = bit s.cr4 7 → t.tlb = s.tlb)))

/-- LMSW (R247): at a level other than 0 it raises #GP(0); otherwise TS, EM, MP take bits 3, 2, 1 of the operand, PE is set by
bit 0 and never cleared, and every other bit of CR0 stays. Setting PE empties the TLB and begins at level 0 (the
model's: log 24, log 9). -/
def Obligations.MachineStatusWordLoaded : Prop :=
  ∀ (p : List Prefix) (o : RmOp) (s : State), Plain p →
    (s.cpl ≠ 0 → exec (.lmsw p o) s = takeException (.gp 0) s)
    ∧ ∀ (t : State) (w : Word16), s.cpl = 0 → WordSource p o s w t →
      ∃ u, exec (.lmsw p o) s = .next u
        ∧ u = { t.completed (.lmsw p o) with cr0 := u.cr0, tlb := u.tlb, cplField := u.cplField }
        ∧ bit u.cr0 3 = bit w 3 ∧ bit u.cr0 2 = bit w 2 ∧ bit u.cr0 1 = bit w 1 ∧ bit u.cr0 0 = (bit w 0 || bit s.cr0 0)
        ∧ (∀ k, 3 < k → bit u.cr0 k = bit s.cr0 k)
        ∧ ((bit w 0 = false ∨ s.pe = true) → u.tlb = t.tlb ∧ u.cplField = s.cplField)
        ∧ (bit w 0 = true → s.pe = false → (∀ e ∈ u.tlb, e.v = false) ∧ u.cplField = 0)

/-- CLTS (R249): at a level other than 0 it raises #GP(0), otherwise it clears CR0.TS and changes nothing else; its encoding is
0F 06. (RF is cleared as after every instruction: 60 R336.) -/
def Obligations.TaskSwitchedCleared : Prop :=
  encode (.clts []) = [0x0F, 0x06] ∧ ∀ (p : List Prefix) (s : State), Plain p →
    (s.cpl = 0 → exec (.clts p) s = .next { s.completed (.clts p) with cr0 := s.cr0 &&& ~~~ 0x00000008 })
    ∧ (s.cpl ≠ 0 → exec (.clts p) s = takeException (.gp 0) s)

/-! ### Debug and test registers (42_debug_and_test_register_instructions.md) -/

/-- MOV to and from DR0 to DR3, DR6 and DR7 at level 0 with DR7.GD = 0: a read copies the register, with the part's pattern in
the nameless bits of DR6 and DR7; a write of DR6 or DR7 takes the named bits only (R260, R261; D18). Nothing else changes. -/
def Obligations.DebugRegisterMoves : Prop :=
  ∀ (p : List Prefix) (m : BitVec 2) (r : Gpr) (s : State), Plain p → s.cpl = 0 → bit s.dr7 13 = false →
    (∀ (n : BitVec 3) (v : Word32),
      (n = 0 ∧ v = s.dr0) ∨ (n = 1 ∧ v = s.dr1) ∨ (n = 2 ∧ v = s.dr2) ∨ (n = 3 ∧ v = s.dr3)
        ∨ (n = 6 ∧ v = (s.part.dr6Pattern &&& ~~~ 0x0000E00F) ||| s.dr6)
        ∨ (n = 7 ∧ v = (s.part.dr7Pattern &&& ~~~ 0xFFFF23FF) ||| s.dr7) →
      exec (.movFromDr p m n r) s = .next { s.completed (.movFromDr p m n r) with gpr := s.gpr.set r v })
    ∧ exec (.movToDr p m 0 r) s = .next { s.completed (.movToDr p m 0 r) with dr0 := s.reg r }
    ∧ exec (.movToDr p m 1 r) s = .next { s.completed (.movToDr p m 1 r) with dr1 := s.reg r }
    ∧ exec (.movToDr p m 2 r) s = .next { s.completed (.movToDr p m 2 r) with dr2 := s.reg r }
    ∧ exec (.movToDr p m 3 r) s = .next { s.completed (.movToDr p m 3 r) with dr3 := s.reg r }
    ∧ exec (.movToDr p m 6 r) s = .next { s.completed (.movToDr p m 6 r) with dr6 := s.reg r &&& 0x0000E00F }
    ∧ exec (.movToDr p m 7 r) s = .next { s.completed (.movToDr p m 7 r) with dr7 := s.reg r &&& 0xFFFF23FF }

/-- DR4 and DR5 (R262): with CR4.DE = 1 they raise #UD, otherwise, and always on a part without DE, they act as DR6 and DR7. -/
def Obligations.DebugRegisterAliases : Prop :=
  ∀ (p : List Prefix) (m : BitVec 2) (r : Gpr) (s : State), Plain p →
    (bit s.cr4 3 = true → s.part.features.de = true → ∀ n, n = 4 ∨ n = 5 →
      exec (.movFromDr p m n r) s = takeException .ud s ∧ exec (.movToDr p m n r) s = takeException .ud s)
    ∧ (bit s.cr4 3 = false ∨ s.part.features.de = false →
      exec (.movFromDr p m 4 r) s = exec (.movFromDr p m 6 r) s ∧ exec (.movToDr p m 4 r) s = exec (.movToDr p m 6 r) s
      ∧ exec (.movFromDr p m 5 r) s = exec (.movFromDr p m 7 r) s ∧ exec (.movToDr p m 5 r) s = exec (.movToDr p m 7 r) s)

/-- DR7.GD (R264; 60 R332, R333): at level 0 with GD = 1 a MOV to or from a debug register is not executed and raises #DB, which sets
DR6.BD and, of the other flags, at most Bn of the conditions in `pending.disabled`; entering the handler of vector 1, and of no other
vector, clears GD. The conditions there are the disabled ones that were met (any value: U13) and, by the model's choice, the enabled
instruction conditions that RF = 1 suppressed (log 33). -/
def Obligations.DebugGuard : Prop :=
  (∀ (p : List Prefix) (m : BitVec 2) (n : BitVec 3) (r : Gpr) (s : State), Plain p → s.cpl = 0 →
      s.noDebugReg n = false → bit s.dr7 13 = true →
      ∃ b : BitVec 4, b &&& s.pending.disabled = b
        ∧ exec (.movFromDr p m n r) s = takeException (.db (0x2000 ||| zext32 b) false) s
        ∧ exec (.movToDr p m n r) s = takeException (.db (0x2000 ||| zext32 b) false) s
        ∧ (s.raised (.db (0x2000 ||| zext32 b) false)).dr6 = s.dr6 ||| 0x2000 ||| zext32 b)
    ∧ ∀ (ev : Event) (c : Option Word32) (s t : State), deliver ev s = .ok (c, t) →
      bit t.dr7 13 = if ev.vector = 1 then false else bit s.dr7 13

/-- MOV to and from the test registers at level 0: a read copies TR6 or TR7, a write of TR7 takes PHYSICAL, HT and REP and starts
no TLB action; TR0 to TR5 are refused (R265, R266; D19, D20). -/
def Obligations.TestRegisterMoves : Prop :=
  ∀ (p : List Prefix) (m : BitVec 2) (n : BitVec 3) (r : Gpr) (s : State), Plain p →
    (s.cpl = 0 →
      exec (.movFromTr p m 6 r) s = .next { s.completed (.movFromTr p m 6 r) with gpr := s.gpr.set r s.tr6 }
      ∧ exec (.movFromTr p m 7 r) s = .next { s.completed (.movFromTr p m 7 r) with gpr := s.gpr.set r s.tr7 }
      ∧ exec (.movToTr p m 7 r) s = .next { s.completed (.movToTr p m 7 r) with tr7 := s.reg r &&& 0xFFFFF01C })
    ∧ (n ≠ 6 → n ≠ 7 → exec (.movFromTr p m n r) s = .refused .noTestRegister
      ∧ exec (.movToTr p m n r) s = .refused .noTestRegister)

/-- A write of TR6 with C = 0 (R266 to R268): the entry of block REP that `TLB_INDEX` selects, by default bits 14 to 12 of LINEAR,
takes LINEAR, V, the attributes whose pair has one bit set, and PHYSICAL; an attribute whose pair does not is any value (U7);
nothing but TR6 and that entry changes. A valid entry so written, alone for its page, then translates the page (20_memory.md R169).
With TR7.HT = 0 the write is refused (U9). -/
def Obligations.TlbWriteCommand : Prop :=
  ∀ (p : List Prefix) (m : BitVec 2) (r : Gpr) (s : State), Plain p → s.cpl = 0 → bit (s.reg r) 0 = false →
    let v := s.reg r
    let x := s.part.tlbIndex
    (x = { b0 := 0, b1 := 1, b2 := 2 } → tlbIndex x (field v 12 20) = field v 12 3)
    ∧ (bit s.tr7 4 = false → exec (.movToTr p m 6 r) s = .refused .tlbWriteWithoutHt)
    ∧ (bit s.tr7 4 = true → ∃ (u : State) (e : TlbEntry), exec (.movToTr p m 6 r) s = .next u
        ∧ u = { s.completed (.movToTr p m 6 r) with
            tr6 := v &&& 0xFFFFFFE1
            tlb := s.tlb.set (8 * (field s.tr7 2 2).toNat + (tlbIndex x (field v 12 20)).toNat) e
            draws := u.draws }
        ∧ e.lin = field v 12 20 ∧ e.v = bit v 11 ∧ e.phys = field s.tr7 12 20
        ∧ (bit v 10 ≠ bit v 9 → e.d = bit v 10) ∧ (bit v 8 ≠ bit v 7 → e.u = bit v 8) ∧ (bit v 6 ≠ bit v 5 → e.w = bit v 6)
        ∧ (s.tlb.length = 32 → bit v 11 = true → (∀ b, b ∈ s.tlbHits (field v 12 20) → b = field s.tr7 2 2) →
          ∀ (y : State) (lin : Word32), y.tlb = u.tlb → y.part = s.part → y.paging = true → field lin 12 20 = field v 12 20 →
            translate .sysRead lin y = .ok (field s.tr7 12 20 ++ field lin 0 12, y)))

/-- A write of TR6 with C = 1 (R266, R267, R269): one valid entry of the page whose attributes match is reported in TR7 with
HT = 1 and its block in REP, and its attributes in TR6; otherwise HT = 0 and PHYSICAL and REP are any value (U8); the TLB
stays. Two valid entries of the page are refused (U9). -/
def Obligations.TlbLookupCommand : Prop :=
  (∀ e : Bool, pairMatches false false e = false ∧ pairMatches false true e = !e ∧ pairMatches true false e = e
      ∧ pairMatches true true e = true)
    ∧ ∀ (p : List Prefix) (m : BitVec 2) (r : Gpr) (s : State), Plain p → s.cpl = 0 → bit (s.reg r) 0 = true →
      let v := s.reg r
      (∀ b, s.tlbHits (field v 12 20) = [b] →
        let e := s.tlbEntry b (field v 12 20)
        let found := pairMatches (bit v 10) (bit v 9) e.d && pairMatches (bit v 8) (bit v 7) e.u
          && pairMatches (bit v 6) (bit v 5) e.w
        (found = true → ∃ u, exec (.movToTr p m 6 r) s = .next u
          ∧ u = { s.completed (.movToTr p m 6 r) with tr6 := u.tr6, tr7 := u.tr7 }
          ∧ field u.tr7 12 20 = e.phys ∧ bit u.tr7 4 = true ∧ field u.tr7 2 2 = b
          ∧ field u.tr6 12 20 = field v 12 20 ∧ bit u.tr6 11 = true ∧ bit u.tr6 10 = e.d ∧ bit u.tr6 9 = !e.d
          ∧ bit u.tr6 8 = e.u ∧ bit u.tr6 7 = !e.u ∧ bit u.tr6 6 = e.w ∧ bit u.tr6 5 = !e.w ∧ bit u.tr6 0 = true)
        ∧ (found = false → ∃ u, exec (.movToTr p m 6 r) s = .next u ∧ bit u.tr7 4 = false
          ∧ u = { s.completed (.movToTr p m 6 r) with tr6 := v &&& 0xFFFFFFE1, tr7 := u.tr7, draws := u.draws }))
      ∧ (s.tlbHits (field v 12 20) = [] → ∃ u, exec (.movToTr p m 6 r) s = .next u ∧ bit u.tr7 4 = false
          ∧ u = { s.completed (.movToTr p m 6 r) with tr6 := v &&& 0xFFFFFFE1, tr7 := u.tr7, draws := u.draws })
      ∧ (1 < (s.tlbHits (field v 12 20)).length → exec (.movToTr p m 6 r) s = .refused .tlbDuplicate)

/-! ### Model-specific registers, counters, identification (43_model_specific_instructions.md) -/

/-- RDMSR and WRMSR (R280 to R283), each on a part that has it: refused in Real Mode (D22), #GP(0) in Virtual-86 Mode, at a level
other than 0 and for a number outside `MSR_SET`, and for a WRMSR that sets a reserved bit (R281; which bits are: log 27) or names a
register that the part does not let be written (92 section 2; log 1); otherwise EDX:EAX takes the register, or the register takes
EDX:EAX, and nothing else changes. -/
def Obligations.ModelSpecificMoves : Prop :=
  ∀ (p : List Prefix) (s : State), Plain p →
    let k := s.gpr.ecx
    let v := s.gpr.edx ++ s.gpr.eax
    let reserved := (k = 0x12 ∨ k = 0x13) ∧ 2 ^ 40 ≤ v.toNat
    (s.part.features.rdmsr = true →
      (s.pe = false → exec (.rdmsr p) s = .refused .msrRealMode)
      ∧ (s.pe = true → s.cpl ≠ 0 ∨ s.hasMsr k = false → exec (.rdmsr p) s = takeException (.gp 0) s)
      ∧ (s.pe = true → s.cpl = 0 → s.hasMsr k = true → ∀ x, s.msr.get k = some x → exec (.rdmsr p) s
        = .next { s.completed (.rdmsr p) with gpr := { s.gpr with edx := field x 32 32, eax := field x 0 32 } }))
    ∧ (s.part.features.wrmsr = true →
      (s.pe = false → exec (.wrmsr p) s = .refused .msrRealMode)
      ∧ (s.pe = true → s.cpl ≠ 0 ∨ s.hasMsr k = false → exec (.wrmsr p) s = takeException (.gp 0) s)
      ∧ (s.pe = true → s.cpl = 0 → s.hasMsr k = true →
        (reserved ∨ k ∈ s.part.msrReadOnly → exec (.wrmsr p) s = takeException (.gp 0) s)
        ∧ (¬ reserved → k ∉ s.part.msrReadOnly → exec (.wrmsr p) s
          = .next { s.completed (.wrmsr p) with msr := s.msr.set k v })))

/-- WRMSR followed at once by RDMSR with the same ECX gives the same EDX:EAX, and WRMSR changes no register of another number
(R284; at the end of a step the counters then move freely: log 11). -/
def Obligations.ModelSpecificRoundTrip : Prop :=
  ∀ (p q : List Prefix) (s : State), Plain p → Plain q → s.part.features.rdmsr = true →
    s.part.features.wrmsr = true → s.prot = true → s.cpl = 0 →
    s.hasMsr s.gpr.ecx = true → s.msrFixed s.gpr.ecx = false → msrReserved s.gpr.ecx (s.gpr.edx ++ s.gpr.eax) = false →
    ∃ t u, exec (.wrmsr p) s = .next t ∧ exec (.rdmsr q) t = .next u ∧ u.gpr = s.gpr
      ∧ ∀ k, k ≠ s.gpr.ecx → u.msr.get k = s.msr.get k

/-- RDTSC (R285, R286): with CR4.TSD = 0, at level 0 and in Real Mode it loads the counter in EDX:EAX; with TSD = 1 at another
level, Virtual-86 Mode included, it raises #GP(0). -/
def Obligations.TimeStampRead : Prop :=
  ∀ (p : List Prefix) (s : State), Plain p → s.part.features.rdtsc = true →
    (bit s.cr4 2 = false ∨ s.cpl = 0 ∨ s.pe = false → exec (.rdtsc p) s = .next { s.completed (.rdtsc p) with
      gpr := { s.gpr with edx := field s.msr.tsc 32 32, eax := field s.msr.tsc 0 32 } })
    ∧ (bit s.cr4 2 = true → s.cpl ≠ 0 → exec (.rdtsc p) s = takeException (.gp 0) s)

/-- RDPMC (R288, R289): with CR4.PCE = 1 at any level, with PCE = 0 at level 0, it loads counter ECX, 0 or 1, in EDX:EAX; with
PCE = 0 at another level, and for another number, it raises #GP(0). -/
def Obligations.PerformanceCounterRead : Prop :=
  ∀ (p : List Prefix) (s : State), Plain p → s.part.features.rdpmc = true →
    (bit s.cr4 8 = false → s.cpl ≠ 0 → exec (.rdpmc p) s = takeException (.gp 0) s)
    ∧ (bit s.cr4 8 = true ∨ s.cpl = 0 →
      (s.gpr.ecx ≠ 0 → s.gpr.ecx ≠ 1 → exec (.rdpmc p) s = takeException (.gp 0) s)
      ∧ ∀ c : BitVec 40, (s.gpr.ecx = 0 ∧ c = s.msr.ctr0) ∨ (s.gpr.ecx = 1 ∧ c = s.msr.ctr1) →
        exec (.rdpmc p) s = .next { s.completed (.rdpmc p) with
          gpr := { s.gpr with edx := zext32 (field c 32 8), eax := field c 0 32 } })

/-- CPUID with EFLAGS.ID = 1 loads the part's row for EAX at any level in any mode; with ID = 0 it is refused (R290, R291; D13).
The row of input 0 of the default part is the vendor string of R292; the row of input 1 of any part has the signature of EDX after
reset and a flag for exactly the options it has (R292; the model's choice for the three flags that stand for two options each: log
1). -/
def Obligations.ProcessorIdentified : Prop :=
  (∀ (p : List Prefix) (s : State), Plain p → s.part.features.cpuid = true →
      (s.idf = true → let c := cpuidTable s.part s.gpr.eax
        exec (.cpuid p) s = .next { s.completed (.cpuid p) with
          gpr := { s.gpr with eax := c.eax, ebx := c.ebx, ecx := c.ecx, edx := c.edx } })
      ∧ (s.idf = false → exec (.cpuid p) s = .refused .cpuidIdClear))
    ∧ cpuidTable .default 0 = { eax := 1, ebx := 0x756E6547, ecx := 0x6C65746E, edx := 0x49656E69 }
    ∧ cpuidTable .default 1 = { eax := 0x0000052C, ebx := 0, ecx := 0, edx := 0x000020BF }
    ∧ ∀ (part : Part), let c := cpuidTable part 1
      let f := part.features
      c.eax = (State.resetOf part).gpr.edx ∧ c.ebx = part.cpuidEbx ∧ c.ecx = part.cpuidEcx
      ∧ bit c.edx 0 = f.fpu ∧ bit c.edx 1 = (f.vme && f.pvi) ∧ bit c.edx 2 = f.de ∧ bit c.edx 3 = f.pse
      ∧ bit c.edx 4 = (f.rdtsc && f.tsd) ∧ bit c.edx 5 = (f.rdmsr && f.wrmsr) ∧ bit c.edx 7 = f.mce ∧ bit c.edx 8 = f.cx8
      ∧ bit c.edx 9 = f.apic ∧ bit c.edx 13 = f.pge ∧ bit c.edx 23 = f.mmx

/-! ### Task calls, returns and the coprocessor (44_task_and_coprocessor_instructions.md) -/

/-- A far CALL in Real Mode and Virtual-86 Mode (R301), immediate or through memory: CS and the next EIP are pushed where the
pushes say, CS takes the selector, sixteen times it as base and a limit of 64 KB (10_state.md R46; which attributes stay is the
model's: log 38), EIP the low 16 bits of the offset (R22); no other register, and no byte but those pushed (and accessed and dirty
bits) changes. -/
def Obligations.FarCallReal : Prop :=
  ∀ (p : List Prefix) (f : FarPtr) (o : RmOp) (i : Instr) (s c t₁ a t₂ b : State) (off : Word32) (sel : Word16)
    (pas₁ pas₂ : List Word32),
    (i = .callPtr p f ∧ off = farOffset f ∧ sel = farSelector f ∧ c = s)
      ∨ (i = .callMem p o ∧ isRegister o = false ∧ readFar p o s = .ok ((off, sel), c)) →
    Plain p → s.pe = false ∨ s.vm = true → Memory.wf s.mem = true →
    let z := s.operandSize p
    operandBytes .ss true (c.pushOffset z) (slotBytes z) c = .ok (pas₁, t₁) →
    push z (zext32 s.segs.cs.sel) c = .ok ((), a) →
    operandBytes .ss true (a.pushOffset z) (slotBytes z) a = .ok (pas₂, t₂) →
    push z (s.eipPlus i.length) a = .ok ((), b) →
    exec i s = .next { b with
      eip := zext32 (low16 off), eflags := clearRf s.eflags, segs := s.realCs sel
      pending := { b.pending with singleStep := s.tf } }
    ∧ b = { s with gpr := b.gpr, tlb := b.tlb, mem := b.mem, pending := b.pending, draws := b.draws }
    ∧ Accessed s c (addrsFrom (s.operandAddr p o) 6)
    ∧ ∀ x, x ∉ pas₁ ++ pas₂ → x ∉ c.entriesOf (addrsFrom (c.linear .ss (c.pushOffset z)) (slotBytes z)) →
        x ∉ a.entriesOf (addrsFrom (a.linear .ss (a.pushOffset z)) (slotBytes z)) → b.physByte x = c.physByte x

/-- A far CALL in Protected Mode (R301), immediate or through memory: a null selector raises #GP(0). An available 32-bit TSS of the
GDT, or the one that a task gate names, is switched to with the next EIP saved, when the DPL of TSS or gate is at least CPL and RPL;
otherwise #GP with the selector; a TSS or gate that is not present raises #NP, a busy TSS #GP with its selector. A code segment or a
call gate is refused (D20). A selector outside its table, and a gate's selector outside the GDT, raise #GP with it (20_memory.md
R150). (That a TSS selector with TI = 1 raises #GP is the model's choice: log 39; so is a task gate to a
16-bit TSS: log 45.) -/
def Obligations.FarCallToTask : Prop :=
  ∀ (p : List Prefix) (f : FarPtr) (o : RmOp) (i : Instr) (s c : State) (off : Word32) (sel : Word16),
    (i = .callPtr p f ∧ sel = farSelector f ∧ c = s)
      ∨ (i = .callMem p o ∧ isRegister o = false ∧ readFar p o s = .ok ((off, sel), c)) →
    Plain p → s.prot = true →
    let next := s.eipPlus i.length
    let stepped := fun t : State => { t with pending := { t.pending with singleStep := s.tf } }
    let code := fun x : Word16 => zext32 (x &&& 0xFFFC)
    (field sel 2 14 = 0 → exec i s = takeException (.gp 0) s)
    ∧ (field sel 2 14 ≠ 0 → s.outsideTable sel → exec i s = takeException (.gp (code sel)) s)
    ∧ ∀ (d : SegCache) (u : State), field sel 2 14 ≠ 0 → readDescriptor sel (.gp (selCode sel)) c = .ok (d, u) →
      let type := field d.attr 0 4
      let reachable := s.cpl ≤ field d.attr 5 2 ∧ field sel 0 2 ≤ field d.attr 5 2
      (bit d.attr 4 = false → type = 9 ∨ type = 5 → ¬ reachable → exec i s = takeException (.gp (code sel)) s)
      ∧ (bit d.attr 4 = false → type = 9 → reachable →
        (bit sel 2 = true → exec i s = takeException (.gp (code sel)) s)
        ∧ (bit sel 2 = false → bit d.attr 7 = false → exec i s = takeException (.np (code sel)) s)
        ∧ (bit sel 2 = false → bit d.attr 7 = true →
          ∀ t, taskSwitch sel d .call next (clearRf s.eflags) 0 u = .ok ((), t) → exec i s = .next (stepped t)))
      ∧ (bit d.attr 4 = false → type = 5 → reachable →
        (bit d.attr 7 = false → exec i s = takeException (.np (code sel)) s)
        ∧ (bit d.attr 7 = true →
          let sel₂ := low16 d.base
          (bit sel₂ 2 = true ∨ field sel₂ 2 14 = 0 ∨ s.outsideTable sel₂ → exec i s = takeException (.gp (code sel₂)) s)
          ∧ ∀ (d₂ : SegCache) (u₂ : State), bit sel₂ 2 = false → field sel₂ 2 14 ≠ 0 →
            readDescriptor sel₂ (.gp (selCode sel₂)) u = .ok (d₂, u₂) →
            let available := bit d₂.attr 4 = false ∧ (field d₂.attr 0 4 = 9 ∨ field d₂.attr 0 4 = 1)
            (¬ available → exec i s = takeException (.gp (code sel₂)) s)
            ∧ (available → bit d₂.attr 7 = false → exec i s = takeException (.np (code sel₂)) s)
            ∧ (available → bit d₂.attr 7 = true →
              ∀ t, taskSwitch sel₂ d₂ .call next (clearRf s.eflags) 0 u₂ = .ok ((), t) → exec i s = .next (stepped t))))
      ∧ ((bit d.attr 4 = true ∧ bit d.attr 3 = true) ∨ (bit d.attr 4 = false ∧ (type = 4 ∨ type = 0xC)) →
        exec i s = .refused .farCallTarget)
      ∧ ((bit d.attr 4 = true ∧ bit d.attr 3 = false)
          ∨ (bit d.attr 4 = false ∧ type ≠ 9 ∧ type ≠ 5 ∧ type ≠ 4 ∧ type ≠ 0xC) →
        exec i s = takeException (.gp (code sel)) s)

/-- What every completed task switch leaves (R303, R304; 20_memory.md R157, R159; 10_state.md R101): TR selects the incoming TSS,
busy; CR0.TS is set; DR7.L0 to L3 are clear and its other bits stay; NT is set by CALL and by events; the registers that are no
part of a task stay. With paging off: every TLB entry is invalid (R159; 10_state.md R83), the outgoing context stands in the
outgoing TSS, the busy bit of the incoming TSS is set, or by IRET that of the outgoing one cleared, the incoming context is what
the incoming TSS holds then, CALL and events write the old TR selector at its start, and no other byte changes but by the accessed
bits of the descriptors that the incoming selectors name, none in Virtual-86 Mode. (The order of the steps is the model's: log 18;
so are the caches of a task in Virtual-86 Mode, log 38, what a 16-bit TSS holds, log 45, and which busy bit IRET clears when TR does
not name the outgoing TSS, log 47.) -/
def Obligations.TaskSwitchRegisters : Prop :=
  ∀ (sel : Word16) (d : SegCache) (kind : SwitchKind) (eip eflags ext : Word32) (s t : State), s.pe = true →
    taskSwitch sel d kind eip eflags ext s = .ok ((), t) →
    (t.tr = { sel := sel, cache := { d with attr := d.attr ||| 2 } }
      ∧ t.cr0 = s.cr0 ||| 0x00000008 ∧ t.dr7 = s.dr7 &&& ~~~ 0x00000055
      ∧ (kind = .call ∨ kind = .event → t.nt = true)
      ∧ t.gdtr = s.gdtr ∧ t.idtr = s.idtr ∧ t.cr2 = s.cr2 ∧ t.cr4 = s.cr4 ∧ t.dr0 = s.dr0 ∧ t.dr1 = s.dr1 ∧ t.dr2 = s.dr2
      ∧ t.dr3 = s.dr3 ∧ t.dr6 = s.dr6 ∧ t.tr6 = s.tr6 ∧ t.tr7 = s.tr7 ∧ t.msr = s.msr ∧ t.part = s.part ∧ t.env = s.env
      ∧ (t.vm = true → t.cpl = 3) ∧ (t.vm = false → t.cpl = field t.segs.cs.sel 0 2)
      ∧ t.tlb.length = s.tlb.length ∧ (s.paging = false → ∀ e ∈ t.tlb, e.v = false))
    ∧ (s.paging = false → Memory.wf s.mem = true →
      let nests := kind = .call ∨ kind = .event
      let marked := s.descriptorAddr (if nests then sel else s.tr.sel) + 5
      s.ram (savedBytes s.tr.cache ++ [marked]) = true → (nests → s.ram (addrsFrom d.base 2) = true) →
      ∃ (u v w : State) (upper : BitVec 3 → Word16), let c := v.contextAt d upper
        ContextSaved s.tr.cache eip eflags s u
        ∧ v.physByte marked = (if nests then u.physByte marked ||| 2 else u.physByte marked &&& ~~~ 2)
        ∧ (∀ a, a ≠ marked → v.physByte a = u.physByte a) ∧ v.part = s.part ∧ v.cr3 = s.cr3
        ∧ ContextLoaded c (decide nests) s t
        ∧ (nests → w.phys16 d.base = s.tr.sel ∧ ∀ a, a ∉ addrsFrom d.base 2 → w.physByte a = v.physByte a)
        ∧ (¬ nests → ∀ a, w.physByte a = v.physByte a)
        ∧ ∀ a, t.physByte a = w.physByte a ∨ (t.physByte a = w.physByte a ||| 1 ∧ t.vm = false
          ∧ ∃ x ∈ [c.cs, c.ss, c.ds, c.es, c.fs, c.gs], field x 2 14 ≠ 0 ∧ a = t.descriptorAddr x + 5))

/-- IRET in Real Mode, in Virtual-86 Mode, and to another task (R302, R303; 60 R351, R371). Real Mode, and Virtual-86 Mode with
IOPL = 3, pop EIP, CS with sixteen times it as base and a limit of 64 KB, and the flags; Virtual-86 Mode with IOPL < 3 raises
#GP(0), or, with CR4.VME = 1 and 16-bit operand size, loads VIF for IF and raises #GP(0) for TF, and for IF with VIP = 1. With NT =
1 in Protected Mode the back link of the TSS names the task to switch to, with NT cleared in the saved image, or raises #TS. In
Protected Mode with NT = 0 the popped CS must be a code segment of its level, not above CPL, present, with EIP inside it; the
return goes to the same level, to an outer one with SS and ESP popped and checked, where each of DS, ES, FS, GS that holds data or
nonconforming code of an inner level becomes null (44 R302), or at CPL 0 with the popped VM to Virtual-86 Mode with six more values
popped. A popped selector outside its table raises #GP with it (20_memory.md R150).
Every way ends the hold on NMIs, and no other register changes, a task switch apart. The flags are those that mode, CPL and
IOPL let it load. (The checks of the selectors: log 19; 16-bit values are zero-extended: log 28; what a load of CS there, and of
all six registers for Virtual-86 Mode, fills: log 38; in which mode the six more pops are made: log 43;
a 16-bit TSS: log 45.) -/
def Obligations.InterruptReturn : Prop :=
  ∀ (p : List Prefix) (s a b t : State) (eip cs fl : Word32), Plain p →
    let i := Instr.iret p
    let z := s.operandSize p
    let e := s.iretEflags z fl
    let sel := low16 cs
    let rpl := field sel 0 2
    let code := fun x : Word16 => zext32 (x &&& 0xFFFC)
    let nulled := fun g : SegState =>
      if bit g.cache.attr 4 = true ∧ (bit g.cache.attr 3 = false ∨ bit g.cache.attr 2 = false) ∧ field g.cache.attr 5 2 < rpl
        then SegState.null 0 else g
    let done := fun u : State => { u with nmiBlocked := false, pending := { u.pending with singleStep := s.tf } }
    -- the flags
    (∀ k, k ∈ [0, 2, 4, 6, 7, 8, 10, 11, 14] → bit e k = bit fl k)
    ∧ bit e 9 = (if s.pe = false ∨ s.cpl ≤ s.iopl then bit fl 9 else bit s.eflags 9)
    ∧ field e 12 2 = (if s.pe = false ∨ s.cpl = 0 then field fl 12 2 else s.iopl)
    ∧ (z = .s32 → bit e 16 = bit fl 16 ∧ bit e 18 = bit fl 18
      ∧ bit e 17 = (if s.pe = true ∧ s.cpl = 0 then bit fl 17 else bit s.eflags 17)
      ∧ bit e 19 = (if s.pe = false ∨ s.cpl = 0 then bit fl 19 else bit s.eflags 19)
      ∧ bit e 20 = (if s.pe = false ∨ s.cpl = 0 then bit fl 20 else bit s.eflags 20)
      ∧ bit e 21 = (bit fl 21 && s.part.features.cpuid))
    ∧ (z = .s16 → bit e 16 = false ∧ ∀ k, k ∈ [17, 18, 19, 20] → bit e k = bit s.eflags k)
    -- Real Mode, from the words at SS:SP
    ∧ (s.pe = false → z = .s16 →
      let sp := low16 s.gpr.esp
      let w := fun k : Word16 => s.phys16 (s.linear .ss (zext32 (sp + k)))
      sp ≠ 0xFFFF → sp ≠ 0xFFFD → sp ≠ 0xFFFB →
      s.deviceAt (addrsFrom (s.linear .ss (zext32 sp)) 2 ++ addrsFrom (s.linear .ss (zext32 (sp + 2))) 2
        ++ addrsFrom (s.linear .ss (zext32 (sp + 4))) 2) = false →
      ∃ u, exec i s = .next u ∧ u = { s with
        eip := zext32 (w 0), segs := s.realCs (w 2), eflags := s.iretEflags .s16 (zext32 (w 4))
        gpr := { s.gpr with esp := withLow16 s.gpr.esp (sp + 6) }, nmiBlocked := false
        pending := u.pending, draws := u.draws } ∧ u.pending.singleStep = s.tf)
    -- Virtual-86 Mode with IOPL below 3
    ∧ (s.v86 = true → s.iopl ≠ 3 → (s.vme = false ∨ z = .s32) → exec i s = takeException (.gp 0) s)
    -- a return to another task
    ∧ (s.prot = true → s.nt = true → ∀ (link : Word16) (c : State),
      tss16 s.tr.cache.base 0 s = .ok (link, c) →
      (s.paging = false → link = s.phys16 s.tr.cache.base ∧ c = s)
      ∧ (bit link 2 = true ∨ field link 2 14 = 0 ∨ s.outsideTable link → exec i s = takeException (.ts (code link)) s)
      ∧ ∀ (d : SegCache) (u : State), bit link 2 = false → field link 2 14 ≠ 0 →
        readDescriptor link (.ts (selCode link)) c = .ok (d, u) →
        let busy := bit d.attr 4 = false ∧ (field d.attr 0 4 = 0xB ∨ field d.attr 0 4 = 3)
        (¬ busy → exec i s = takeException (.ts (code link)) s)
        ∧ (busy → bit d.attr 7 = false → exec i s = takeException (.np (code link)) s)
        ∧ (busy → bit d.attr 7 = true →
          ∀ v, taskSwitch link d .iret (s.eipPlus i.length) (clearRf s.eflags &&& ~~~ 0x00004000) 0 u = .ok ((), v) →
            exec i s = .next (done v)))
    -- three pops
    ∧ (pop z s = .ok (eip, a) → pop z a = .ok (cs, b) → pop z b = .ok (fl, t) →
      (t = { s with gpr := { s.gpr with esp := t.gpr.esp }, tlb := t.tlb, mem := t.mem, pending := t.pending, draws := t.draws }
        ∧ (s.paging = false → t.mem = s.mem))
      ∧ (s.pe = false ∨ (s.v86 = true ∧ s.iopl = 3) →
        exec i s = .next (done { t with eip := zext32 (low16 eip), segs := s.realCs sel, eflags := e }))
      ∧ (s.v86 = true → s.iopl ≠ 3 → s.vme = true → z = .s16 →
        (bit fl 8 = true ∨ (bit fl 9 = true ∧ bit s.eflags 20 = true) → exec i s = takeException (.gp 0) s)
        ∧ (bit fl 8 = false → bit fl 9 = false ∨ bit s.eflags 20 = false → ∃ v : Word32,
          exec i s = .next (done { t with eip := zext32 (low16 eip), segs := s.realCs sel, eflags := v })
          ∧ (∀ k, k ∈ [0, 2, 4, 6, 7, 8, 10, 11, 14] → bit v k = bit fl k) ∧ bit v 19 = bit fl 9 ∧ bit v 16 = false
          ∧ ∀ k, k ∈ [9, 12, 13, 17, 18, 20] → bit v k = bit s.eflags k))
      ∧ (s.prot = true → s.nt = false → bit fl 17 = true ∧ s.cpl = 0 ∧ z = .s32 →
        ∀ (esp ss es ds fs gs : Word32) (t₁ t₂ t₃ t₄ t₅ t₆ : State), pop .s32 t = .ok (esp, t₁) → pop .s32 t₁ = .ok (ss, t₂) →
          pop .s32 t₂ = .ok (es, t₃) → pop .s32 t₃ = .ok (ds, t₄) → pop .s32 t₄ = .ok (fs, t₅) → pop .s32 t₅ = .ok (gs, t₆) →
          let v86 := fun (g : SegState) (x : Word32) =>
            ({ sel := low16 x, cache := g.cache.atParagraph (low16 x) } : SegState)
          exec i s = .next (done { t₆ with
            eip := zext32 (low16 eip), eflags := e, gpr := { s.gpr with esp := esp }, cplField := 3
            segs := { es := v86 s.segs.es es, cs := v86 s.segs.cs cs, ss := v86 s.segs.ss ss, ds := v86 s.segs.ds ds
                      fs := v86 s.segs.fs fs, gs := v86 s.segs.gs gs } }))
      ∧ (s.prot = true → s.nt = false → ¬ (bit fl 17 = true ∧ s.cpl = 0 ∧ z = .s32) →
        (field sel 2 14 = 0 → exec i s = takeException (.gp 0) s)
        ∧ (field sel 2 14 ≠ 0 → s.outsideTable sel → exec i s = takeException (.gp (code sel)) s)
        ∧ ∀ (d : SegCache) (u : State), field sel 2 14 ≠ 0 → readDescriptor sel (.gp (selCode sel)) t = .ok (d, u) →
          let fits := bit d.attr 4 = true ∧ bit d.attr 3 = true ∧ s.cpl ≤ rpl
            ∧ if bit d.attr 2 then field d.attr 5 2 ≤ rpl else field d.attr 5 2 = rpl
          let off := if bit d.attr 10 then eip else zext32 (low16 eip)
          (¬ fits → exec i s = takeException (.gp (code sel)) s)
          ∧ (fits → bit d.attr 7 = false → exec i s = takeException (.np (code sel)) s)
          ∧ (fits → bit d.attr 7 = true → d.byteLimit < eip.toNat → exec i s = takeException (.gp 0) s)
          ∧ (fits → bit d.attr 7 = true → eip.toNat ≤ d.byteLimit →
            (rpl = s.cpl → ∀ v, loadSeg .cs sel d u = .ok ((), v) →
              exec i s = .next (done { v with eip := off, eflags := e, cplField := rpl }))
            ∧ (s.cpl < rpl → ∀ (esp ss : Word32) (t₁ t₂ : State), pop z u = .ok (esp, t₁) → pop z t₁ = .ok (ss, t₂) →
              let sel₂ := low16 ss
              (field sel₂ 2 14 = 0 → exec i s = takeException (.gp 0) s)
              ∧ (field sel₂ 2 14 ≠ 0 → s.outsideTable sel₂ → exec i s = takeException (.gp (code sel₂)) s)
              ∧ ∀ (d₂ : SegCache) (u₂ : State), field sel₂ 2 14 ≠ 0 →
                readDescriptor sel₂ (.gp (selCode sel₂)) t₂ = .ok (d₂, u₂) →
                let good := bit d₂.attr 4 = true ∧ bit d₂.attr 3 = false ∧ bit d₂.attr 1 = true
                  ∧ field d₂.attr 5 2 = rpl ∧ field sel₂ 0 2 = rpl
                (¬ good → exec i s = takeException (.gp (code sel₂)) s)
                ∧ (good → bit d₂.attr 7 = false → exec i s = takeException (.ss (code sel₂)) s)
                ∧ (good → bit d₂.attr 7 = true → ∀ v w, loadSeg .ss sel₂ d₂ u₂ = .ok ((), v) →
                  loadSeg .cs sel d { v with
                    gpr := { v.gpr with esp := esp }
                    segs := { v.segs with ds := nulled v.segs.ds, es := nulled v.segs.es
                                          fs := nulled v.segs.fs, gs := nulled v.segs.gs } } = .ok ((), w) →
                  exec i s = .next (done { w with eip := off, eflags := e, cplField := rpl }))))))

/-- WAIT and ESC (R306 to R310). WAIT with MP = TS = 1 raises #NM, ESC with EM = 1 or TS = 1 does; otherwise a pending numeric
error raises #MF with NE = 1, stops the processor before a waiting instruction with NE = 0 and IGNNE# not asserted, and is ignored
with IGNNE# asserted; WAIT then only goes on to the next instruction, and the floating-point operation of an ESC is refused
(D20). Which ESC instructions wait is the model's presumption (log 22). In Real Mode the #NM of ESC enters vector 7 with the EIP of
the ESC (60 R355, R358, R361). The model's choices there: NT, VM and RF are cleared (log 30), the pushes meet no breakpoint (log 14),
and the cache of CS keeps its attributes but G (log 38). -/
def Obligations.WaitAndEsc : Prop :=
  ∀ (p : List Prefix) (x g : BitVec 3) (o : RmOp) (s : State), Plain p →
    (s.mp = true → s.ts = true → exec (.wait p) s = takeException .nm s)
    ∧ (s.mp = false ∨ s.ts = false →
      (s.env.numericError = false ∨ (s.ne = false ∧ s.env.ignneLow = true) →
        exec (.wait p) s = .next (s.completed (.wait p)))
      ∧ (s.env.numericError = true → s.ne = true → exec (.wait p) s = takeException .mf s)
      ∧ (s.env.numericError = true → s.ne = false → s.env.ignneLow = false →
        exec (.wait p) s = .next { s with activity := .waiting }))
    ∧ (s.em = true ∨ s.ts = true → exec (.esc p x g o) s = takeException .nm s
      ∧ (s.realReady 7 → Memory.wf s.mem = true → ∃ t, exec (.esc p x g o) s = .next t ∧ RealEntry 7 s.eip s t))
    ∧ (s.em = false → s.ts = false →
      (s.env.numericError = false ∨ (s.ne = false ∧ s.env.ignneLow = true) ∨ escWaits x g o = false →
        exec (.esc p x g o) s = .refused .fpuOperation)
      ∧ (s.env.numericError = true → escWaits x g o = true → s.ne = true → exec (.esc p x g o) s = takeException .mf s)
      ∧ (s.env.numericError = true → escWaits x g o = true → s.ne = false → s.env.ignneLow = false →
        exec (.esc p x g o) s = .next { s with activity := .waiting }))

/-! ### Exceptions (60_exceptions.md) -/

/-- Delivery in Real Mode of any event whose vector is inside the table (R355, R358): three words below SP and no other byte,
the flags, CS and EIP; an exception is delivered with the EIP of its instruction, after CR2 or DR6 is written (R326, R332). In every
mode an exception is the event with the vector and the error code of R320 and the saved RF of R336, delivered after CR2 takes the
linear address of a #PF, or DR6 the flags of a #DB. The model's choices: the attributes in the cache of CS (log 38), the pushes meet
no breakpoint (log 14), NT, VM and RF are cleared with IF, TF and AC (log 30). -/
def Obligations.RealModeEntry : Prop :=
  (∀ (ev : Event) (s : State), s.realReady ev.vector → Memory.wf s.mem = true →
      ∃ t, takeEvent ev s = .next t ∧ RealEntry ev.vector ev.eip s t)
    ∧ (∀ (e : Exn) (s : State), s.realReady e.vector → Memory.wf s.mem = true →
      ∃ t, takeException e s = .next t ∧ RealEntry e.vector s.eip (s.raised e) t)
    ∧ ∀ (e : Exn) (s t : State) (c : Option Word32),
      let row : Byte × Option Word32 × Bool := match e with
        | .db _ atInstr => (1, none, if atInstr then bit s.eflags 16 else true)
        | .ud => (6, none, true) | .nm => (7, none, true) | .df => (8, some 0, bit s.eflags 16) | .ts k => (10, some k, true)
        | .np k => (11, some k, true) | .ss k => (12, some k, true) | .gp k => (13, some k, true) | .pf _ k => (14, some k, true)
        | .mf => (16, none, true) | .ac => (17, some 0, true)
      let u : State := match e with
        | .pf lin _ => { s with cr2 := lin }
        | .db f _ => { s with dr6 := s.dr6 ||| (f &&& 0xE00F), draws := s.draws + 1 }
        | _ => s
      let ev : Event := { vector := row.1, code := row.2.1, eip := s.eip, rf := row.2.2, software := false, external := false }
      deliver ev u = .ok (c, t) →
        (c = none → takeException e s = .next t ∧ takeEvent ev u = .next t)
        ∧ ∀ k v, c = some k → pushFrame .s32 k t = .ok ((), v) → takeException e s = .next v ∧ takeEvent ev u = .next v

/-- INT3 (42 R270): the event of vector 3, a trap that saves the EIP after the instruction. When it is delivered the instruction is
complete and single step follows if TF was 1 (60 R321, R334; log 13); in Real Mode it enters the handler; when its delivery faults,
as with a gate whose DPL is below CPL (60 R354), the fault is delivered instead. The model's choices in Real Mode: NT, VM and RF are
cleared with IF, TF and AC (log 30), the pushes meet no breakpoint (log 14), the attributes in the cache of CS (log 38). -/
def Obligations.BreakpointInstruction : Prop :=
  ∀ (p : List Prefix) (s : State), Plain p →
    let ev : Event := { vector := 3, code := none, eip := s.eipPlus (Instr.int3 p).length, rf := false, software := true
                        external := false }
    (∀ (c : Option Word32) (t : State), deliver ev s = .ok (c, t) →
      exec (.int3 p) s = .next { t with pending := { t.pending with singleStep := s.tf } })
    ∧ (∀ e : Exn, deliver ev s = .error (.exc e) → exec (.int3 p) s = takeEvent ev s)
    ∧ (s.realReady 3 → Memory.wf s.mem = true → ∃ t, RealEntry 3 ev.eip s t
      ∧ exec (.int3 p) s = .next { t with pending := { t.pending with singleStep := s.tf } })
    ∧ (s.pe = true → s.paging = false → 31 ≤ s.idtr.limit.toNat → s.deviceAt (addrsFrom (s.idtr.base + 24) 8) = false →
      field (s.gateAt (s.idtr.base + 24)).access 5 2 < s.cpl → (s.gateAt (s.idtr.base + 24)).access &&& 0x1F ∈ [(6 : Byte), 7, 0xE, 0xF] →
      deliver ev s = .error (.exc (.gp 26)))

/-- Delivery in Protected Mode (R354, R356, R357, R359 to R361), paging off. Through an interrupt or trap gate of 32 or 16 bits, on
a stack pointer of 32 or 16 bits, the descriptors in the GDT and already accessed. To a handler of the same level: EFLAGS with RF
as the event says, CS, EIP and the error code are pushed in the gate's size; TF, NT, VM, RF are cleared, IF through an interrupt
gate; GD on entry to #DB (R333); no other byte and no other register changes. To a handler of an inner level, and from Virtual-86
Mode: the stack is that of the level in the TSS, SS and ESP are pushed first, and before them, from Virtual-86 Mode, GS, FS, DS and
ES, which become null. A selector of the gate that is null, outside its table, or of no code segment (from Virtual-86 Mode: of level 0)
raises #GP with it, of an absent one #NP (R328; which comes first: log 20); a TSS too short for the inner stack raises #TS, a bad inner
SS #GP or, absent, #SS (log 19). Through a task gate (R348, R360): a task switch to the TSS that the gate names, which nests, and then the
error code pushed on the new task's stack. The model's choices: the pushes meet no breakpoint (log 14), a handler whose DPL is
above CPL is not rejected (log 20), the checks of the inner SS (log 19), the offset of a 16-bit gate (log 37), what a bad task gate
raises (log 41), that the pushes are made at the inner level (log 44), and where a 16-bit TSS has the inner stack (log 45). -/
def Obligations.ProtectedEntrySameLevel : Prop :=
  ∀ (ev : Event) (s : State), s.pe = true → s.paging = false → Memory.wf s.mem = true →
    ev.vector.toNat * 8 + 7 ≤ s.idtr.limit.toNat →
    let gateAddr := s.idtr.base + zext32 ev.vector * 8
    let g := s.gateAt gateAddr
    let codeAddr := s.gdtr.base + zext32 (g.sel &&& 0xFFF8)
    let d := s.descriptorAt codeAddr
    let guarded := fun x : Word32 => if ev.vector = 1 then setBit x 13 false else x
    let ext : Word32 := if ev.external then 1 else 0
    let code := fun x : Word16 => zext32 (x &&& 0xFFFC) + ext
    -- the frame: the size of a slot, the offset of slot `k`, ESP after `n` slots, and the bytes
    let w : Nat := if bit g.access 3 then 4 else 2
    let slotAt := fun (big : Bool) (esp : Word32) (k : Nat) =>
      let off := esp - BitVec.ofNat 32 (w * (k + 1))
      if big then off else zext32 (low16 off)
    let below := fun (big : Bool) (esp : Word32) (n : Nat) =>
      if big then esp - BitVec.ofNat 32 (w * n) else withLow16 esp (low16 esp - BitVec.ofNat 16 (w * n))
    let places := fun (base : Word32) (big : Bool) (esp : Word32) (n : Nat) =>
      (List.range n).flatMap fun k => addrsFrom (base + slotAt big esp k) w
    let stored := fun (base : Word32) (big : Bool) (esp : Word32) (slots : List Word32) (t : State) =>
      (∀ k x, slots[k]? = some x → t.bytesAt (addrsFrom (base + slotAt big esp k) w) = (bytes32 x).take w)
        ∧ ∀ a, a ∉ places base big esp slots.length → t.physByte a = s.physByte a
    let entered := fun (n : BitVec 2) (u : State) => { u with
      eip := if bit d.attr 10 then g.offset else zext32 (low16 g.offset)
      eflags := s.eflags &&& ~~~ (if bit g.access 0 then 0x00034100 else 0x00034300)
      segs := { u.segs with cs := { sel := field g.sel 2 14 ++ n, cache := d } }
      dr7 := guarded s.dr7 }
    s.deviceAt (addrsFrom gateAddr 8) = false → bit g.access 7 = true → (ev.software = true → s.cpl ≤ field g.access 5 2) →
    -- a handler that cannot be entered
    (g.access &&& 0x1F ∈ [(6 : Byte), 7, 0xE, 0xF] →
      (field g.sel 2 14 = 0 ∨ s.outsideTable g.sel → deliver ev s = .error (.exc (.gp (code g.sel))))
      ∧ ∀ (b : SegCache) (u : State), field g.sel 2 14 ≠ 0 → readDescriptor g.sel (.gp (code g.sel)) s = .ok (b, u) →
        let runs := bit b.attr 4 = true ∧ bit b.attr 3 = true ∧ (s.vm = true → field b.attr 5 2 = 0)
        (¬ runs → deliver ev s = .error (.exc (.gp (code g.sel))))
        ∧ (runs → bit b.attr 7 = false → deliver ev s = .error (.exc (.np (code g.sel)))))
    -- interrupt and trap gates
    ∧ (g.access &&& 0x1F ∈ [(6 : Byte), 7, 0xE, 0xF] → s.deviceAt (addrsFrom codeAddr 8) = false →
      field g.sel 2 14 ≠ 0 → bit g.sel 2 = false → (g.sel &&& 0xFFF8).toNat + 7 ≤ s.gdtr.limit.toNat →
      bit d.attr 4 = true → bit d.attr 3 = true → bit d.attr 7 = true → bit d.attr 0 = true →
      (s.vm = false → (bit d.attr 2 = true ∨ s.cpl ≤ field d.attr 5 2) →
        let slots := ev.slots s
        let n := slots.length
        let base := s.segs.ss.cache.base
        let big := bit s.segs.ss.cache.attr 10
        (∀ k, k < n → s.segAllows .ss true (slotAt big s.gpr.esp k) w = true) → s.ram (places base big s.gpr.esp n) = true →
        ∃ t, takeEvent ev s = .next t
          ∧ t = entered s.cpl { s with gpr := { s.gpr with esp := below big s.gpr.esp n }, mem := t.mem }
          ∧ stored base big s.gpr.esp slots t)
      ∧ ((s.vm = true ∧ field d.attr 5 2 = 0) ∨ (s.vm = false ∧ bit d.attr 2 = false ∧ field d.attr 5 2 < s.cpl) →
        let l := field d.attr 5 2
        let small := s.tr.cache.isTss16 = true
        let link := s.tr.cache.base + (if small then BitVec.ofNat 32 (4 * l.toNat + 2) else BitVec.ofNat 32 (8 * l.toNat + 4))
        let esp := if small then zext32 (s.phys16 link) else s.phys32 link
        let sel := if small then s.phys16 (link + 2) else s.phys16 (link + 4)
        let stackAddr := s.gdtr.base + zext32 (sel &&& 0xFFF8)
        let q := s.descriptorAt stackAddr
        let big := bit q.attr 10
        let slots := (if s.vm then [zext32 s.segs.gs.sel, zext32 s.segs.fs.sel, zext32 s.segs.ds.sel, zext32 s.segs.es.sel] else [])
          ++ [zext32 s.segs.ss.sel, s.gpr.esp] ++ ev.slots s
        let n := slots.length
        let reach := if small then 4 * l.toNat + 5 else 8 * l.toNat + 9
        (s.tr.cache.byteLimit < reach → deliver ev s = .error (.exc (.ts (code s.tr.sel))))
        ∧ (reach ≤ s.tr.cache.byteLimit → s.deviceAt (addrsFrom link (if small then 4 else 6)) = false →
          (field sel 2 14 = 0 ∨ s.outsideTable sel → deliver ev s = .error (.exc (.gp (code sel))))
          ∧ ∀ (b : SegCache) (u : State), field sel 2 14 ≠ 0 → readDescriptor sel (.gp (code sel)) s = .ok (b, u) →
            let good := field sel 0 2 = l ∧ field b.attr 5 2 = l ∧ bit b.attr 4 = true ∧ bit b.attr 3 = false ∧ bit b.attr 1 = true
            (¬ good → deliver ev s = .error (.exc (.gp (code sel))))
            ∧ (good → bit b.attr 7 = false → deliver ev s = .error (.exc (.ss (code sel)))))
        ∧ (reach ≤ s.tr.cache.byteLimit →
          s.deviceAt (addrsFrom link (if small then 4 else 6) ++ addrsFrom stackAddr 8) = false →
          field sel 2 14 ≠ 0 → bit sel 2 = false → (sel &&& 0xFFF8).toNat + 7 ≤ s.gdtr.limit.toNat →
          field sel 0 2 = l → field q.attr 5 2 = l → bit q.attr 4 = true → bit q.attr 3 = false → bit q.attr 1 = true →
          bit q.attr 7 = true → bit q.attr 0 = true →
          (∀ k, k < n → q.inLimit (slotAt big esp k) w = true) → s.ram (places q.base big esp n) = true →
          ∃ t, takeEvent ev s = .next t
            ∧ t = entered l { s with
                gpr := { s.gpr with esp := below big esp n }, cplField := l, mem := t.mem
                segs := { (if s.vm then { s.segs with ds := .null 0, es := .null 0, fs := .null 0, gs := .null 0 } else s.segs) with
                  ss := { sel := sel, cache := q } } }
            ∧ stored q.base big esp slots t)))
    -- task gates
    ∧ (g.access &&& 0x1F = 5 →
      (bit g.sel 2 = true ∨ field g.sel 2 14 = 0 ∨ s.outsideTable g.sel → deliver ev s = .error (.exc (.gp (code g.sel))))
      ∧ ∀ (b : SegCache) (u : State), bit g.sel 2 = false → field g.sel 2 14 ≠ 0 →
        readDescriptor g.sel (.gp (code g.sel)) s = .ok (b, u) →
        let available := bit b.attr 4 = false ∧ (field b.attr 0 4 = 9 ∨ field b.attr 0 4 = 1)
        (¬ available → deliver ev s = .error (.exc (.gp (code g.sel))))
        ∧ (available → bit b.attr 7 = false → deliver ev s = .error (.exc (.np (code g.sel))))
        ∧ (available → bit b.attr 7 = true →
          ∀ t, taskSwitch g.sel b .event ev.eip (setBit s.eflags 16 ev.rf) ext u = .ok ((), t) →
          t.nt = true
          ∧ (ev.code = none → takeEvent ev s = .next { t with dr7 := guarded t.dr7 })
          ∧ ∀ x, ev.code = some x →
            let wide := t.stackSize = .s32
            let off := if wide then t.gpr.esp - 4 else zext32 (low16 (t.gpr.esp - 4))
            let pas := addrsFrom (t.segs.ss.cache.base + off) 4
            t.segAllows .ss true off 4 = true → t.ram pas = true →
            ∃ v, takeEvent ev s = .next v
              ∧ v = { t with
                  gpr := { t.gpr with esp := if wide then t.gpr.esp - 4 else withLow16 t.gpr.esp (low16 t.gpr.esp - 4) }
                  dr7 := guarded t.dr7, mem := v.mem }
              ∧ v.bytesAt pas = bytes32 x ∧ ∀ a, a ∉ pas → v.physByte a = t.physByte a))
end

