-- ==== Sys2Proof/Laws/Exec.lean ====
section
/-! SUPPORT. What the pieces of an `Exec` computation answer, and how a relation between the state before and the state
after passes through them. -/

namespace Sys2Proof.Machine

variable {α β : Type}

@[simp] theorem exec_run (m : Exec α) (s : State) : StateT.run m s = m s := rfl

@[simp] theorem exec_pure (a : α) (s : State) : (pure a : Exec α) s = .ok (a, s) := rfl

theorem exec_bind (m : Exec α) (f : α → Exec β) (s : State) :
    (m >>= f) s = match m s with
      | .ok (a, t) => f a t
      | .error e => .error e := by
  show (m s >>= fun x => f x.1 x.2) = _
  cases h : m s with
  | error e => rfl
  | ok x => rfl

/-- A bind whose first part answers goes on in the state that part left. -/
theorem exec_bind_of_ok {m : Exec α} {f : α → Exec β} {s t : State} {a : α} (h : m s = .ok (a, t)) :
    (m >>= f) s = f a t := by
  rw [exec_bind, h]

/-- A bind whose first part stops, stops. -/
theorem exec_bind_of_error {m : Exec α} {f : α → Exec β} {s : State} {e : Stop} (h : m s = .error e) :
    (m >>= f) s = .error e := by
  rw [exec_bind, h]

/-- A bind that answers is its two parts answering. -/
theorem exec_bind_ok {m : Exec α} {f : α → Exec β} {s u : State} {b : β} (h : (m >>= f) s = .ok (b, u)) :
    ∃ a t, m s = .ok (a, t) ∧ f a t = .ok (b, u) := by
  rw [exec_bind] at h
  split at h
  · next a t h' => exact ⟨a, t, h', h⟩
  · cases h

@[simp] theorem exec_get (s : State) : (get : Exec State) s = .ok (s, s) := rfl
@[simp] theorem exec_set (s t : State) : (set t : Exec Unit) s = .ok ((), t) := rfl
@[simp] theorem exec_modify (f : State → State) (s : State) : (modify f : Exec Unit) s = .ok ((), f s) := rfl
@[simp] theorem exec_throw (e : Stop) (s : State) : (throw e : Exec α) s = .error e := rfl
@[simp] theorem exec_raise (e : Exn) (s : State) : (raise e : Exec α) s = .error (.exc e) := rfl
@[simp] theorem exec_refuse (r : Refusal) (s : State) : (refuse r : Exec α) s = .error (.refused r) := rfl

theorem exec_raiseIf (c : Bool) (e : Exn) (s : State) :
    raiseIf c e s = if c then .error (.exc e) else .ok ((), s) := by
  cases c <;> rfl

theorem exec_refuseIf (c : Bool) (r : Refusal) (s : State) :
    refuseIf c r s = if c then .error (.refused r) else .ok ((), s) := by
  cases c <;> rfl

@[simp] theorem exec_raiseIf_false (e : Exn) (s : State) : raiseIf false e s = .ok ((), s) := rfl
@[simp] theorem exec_raiseIf_true (e : Exn) (s : State) : raiseIf true e s = .error (.exc e) := rfl
@[simp] theorem exec_refuseIf_false (r : Refusal) (s : State) : refuseIf false r s = .ok ((), s) := rfl
@[simp] theorem exec_refuseIf_true (r : Refusal) (s : State) : refuseIf true r s = .error (.refused r) := rfl

/-- A guard that lets pass changes nothing. -/
theorem raiseIf_ok {c : Bool} {e : Exn} {s t : State} {a : Unit} (h : raiseIf c e s = .ok (a, t)) : c = false ∧ t = s := by
  cases c
  · cases h; exact ⟨rfl, rfl⟩
  · cases h

theorem refuseIf_ok {c : Bool} {r : Refusal} {s t : State} {a : Unit} (h : refuseIf c r s = .ok (a, t)) :
    c = false ∧ t = s := by
  cases c
  · cases h; exact ⟨rfl, rfl⟩
  · cases h

@[simp] theorem exec_draw (s : State) : draw s = .ok (s.draws, { s with draws := s.draws + 1 }) := rfl

/-! ### Relations between the state before and the state after -/

/-- Whenever `m` answers, the states before and after are related by `R`. -/
def Keeps (R : State → State → Prop) (m : Exec α) : Prop := ∀ s a t, m s = .ok (a, t) → R s t

/-- As `Keeps`, for the states before that satisfy `P`. -/
def KeepsIf (P : State → Prop) (R : State → State → Prop) (m : Exec α) : Prop := ∀ s a t, P s → m s = .ok (a, t) → R s t

/-- A relation that computations can be composed under. -/
structure IsFrame (R : State → State → Prop) : Prop where
  refl : ∀ s, R s s
  trans : ∀ s t u, R s t → R t u → R s u

variable {R : State → State → Prop}

theorem keeps_pure (hR : IsFrame R) (a : α) : Keeps R (pure a : Exec α) := by
  intro s b t h
  cases h
  exact hR.refl s

theorem keeps_bind (hR : IsFrame R) {m : Exec α} {f : α → Exec β} (hm : Keeps R m) (hf : ∀ a, Keeps R (f a)) :
    Keeps R (m >>= f) := by
  intro s b u h
  obtain ⟨a, t, h1, h2⟩ := exec_bind_ok h
  exact hR.trans s t u (hm s a t h1) (hf a t b u h2)

/-- The common beginning of an operation: it reads the state and goes on. -/
theorem keeps_get_bind {f : State → Exec β} (hf : ∀ s b u, f s s = .ok (b, u) → R s u) :
    Keeps R (get >>= f) := by
  intro s b u h
  rw [exec_bind_of_ok (exec_get s)] at h
  exact hf s b u h

theorem keeps_get (hR : IsFrame R) : Keeps R (get : Exec State) := by
  intro s a t h
  cases h
  exact hR.refl s

theorem keeps_modify {f : State → State} (hf : ∀ s, R s (f s)) : Keeps R (modify f : Exec Unit) := by
  intro s a t h
  cases h
  exact hf s

theorem keeps_raise (e : Exn) : Keeps R (raise e : Exec α) := by
  intro s a t h
  cases h

theorem keeps_refuse (r : Refusal) : Keeps R (refuse r : Exec α) := by
  intro s a t h
  cases h

theorem keeps_raiseIf (hR : IsFrame R) (c : Bool) (e : Exn) : Keeps R (raiseIf c e) := by
  cases c
  · exact keeps_pure hR ()
  · exact keeps_raise e

theorem keeps_refuseIf (hR : IsFrame R) (c : Bool) (r : Refusal) : Keeps R (refuseIf c r) := by
  cases c
  · exact keeps_pure hR ()
  · exact keeps_refuse r

theorem keeps_ite {c : Prop} [Decidable c] {m n : Exec α} (hm : Keeps R m) (hn : Keeps R n) :
    Keeps R (if c then m else n) := by
  split
  · exact hm
  · exact hn

/-- A condition that the first part of a bind keeps holds for its second part. -/
theorem keepsIf_bind (hR : IsFrame R) {P Q : State → Prop} {m : Exec α} {f : α → Exec β}
    (hm : KeepsIf P (fun s t => R s t ∧ Q t) m) (hf : ∀ a, KeepsIf Q R (f a)) : KeepsIf P R (m >>= f) := by
  intro s b u hp h
  obtain ⟨a, t, h1, h2⟩ := exec_bind_ok h
  obtain ⟨e, hq⟩ := hm s a t hp h1
  exact hR.trans s t u e (hf a t b u hq h2)

theorem exec_onlyIf (c : Bool) (m : Exec Unit) (s : State) : onlyIf c m s = if c then m s else .ok ((), s) := by
  cases c <;> rfl

@[simp] theorem exec_onlyIf_false (m : Exec Unit) (s : State) : onlyIf false m s = .ok ((), s) := rfl
@[simp] theorem exec_onlyIf_true (m : Exec Unit) (s : State) : onlyIf true m s = m s := rfl

theorem keeps_onlyIf (hR : IsFrame R) (c : Bool) {m : Exec Unit} (hm : Keeps R m) : Keeps R (onlyIf c m) := by
  cases c
  · exact keeps_pure hR ()
  · exact hm

end Sys2Proof.Machine
end

