-- ==== Sys2Proof/Laws/Mmu.lean ====
section
/-! SUPPORT. What memory accesses can do to the state: whatever relation the primitive updates keep, they keep. -/

namespace Sys2Proof.Machine

/-- A relation that holds over stores, changes of the TLB that keep its size, and the use of free values. -/
structure MmuClosed (R : State → State → Prop) : Prop where
  frame : IsFrame R
  store : ∀ s pas vs, R s (s.storeBytes pas vs)
  tlb : ∀ s l, l.length = s.tlb.length → R s { s with tlb := l }
  draws : ∀ s n, R s { s with draws := n }

/-- As `MmuClosed`, and over the noting of breakpoint conditions. -/
structure OperandClosed (R : State → State → Prop) : Prop extends MmuClosed R where
  pending : ∀ s p, R s { s with pending := p }

variable {R : State → State → Prop}

theorem keeps_draw (h : MmuClosed R) : Keeps R draw := by
  intro s a t ht
  cases ht
  exact h.draws s _

theorem survivors_length (k j : Nat) (l : List TlbEntry) : (survivors k j l).length = l.length := by
  induction l generalizing j with
  | nil => rfl
  | cons e l ih => simp [survivors, ih]

theorem keeps_setTlb (h : MmuClosed R) (b : BitVec 2) (page : BitVec 20) (e : TlbEntry) :
    Keeps R (modify fun s => s.setTlb b page e) :=
  keeps_modify fun s => h.tlb s _ (List.length_set ..)

theorem keeps_fillTlb (h : MmuClosed R) (page : BitVec 20) (e : TlbEntry) : Keeps R (fillTlb page e) := by
  refine keeps_bind h.frame (keeps_draw h) fun k => ?_
  refine keeps_bind h.frame (keeps_modify fun s => h.tlb s _ (survivors_length k 0 s.tlb)) fun _ => ?_
  split
  · exact keeps_setTlb h _ page e
  · exact keeps_pure h.frame ()

theorem keeps_walk (h : MmuClosed R) (acc : Access) (lin : Word32) : Keeps R (walk acc lin) := by
  refine keeps_get_bind fun s b u hu => ?_
  obtain ⟨_, _, h1, hu⟩ := exec_bind_ok hu
  obtain ⟨_, rfl⟩ := refuseIf_ok h1
  obtain ⟨_, _, h1, hu⟩ := exec_bind_ok hu
  obtain ⟨_, rfl⟩ := raiseIf_ok h1
  split at hu
  · obtain ⟨_, _, h1, hu⟩ := exec_bind_ok hu
    obtain ⟨_, rfl⟩ := raiseIf_ok h1
    obtain ⟨_, _, h1, hu⟩ := exec_bind_ok hu
    obtain ⟨_, rfl⟩ := raiseIf_ok h1
    cases hu
    exact h.store _ _ _
  · obtain ⟨_, _, h1, hu⟩ := exec_bind_ok hu
    obtain ⟨_, rfl⟩ := refuseIf_ok h1
    obtain ⟨_, _, h1, hu⟩ := exec_bind_ok hu
    obtain ⟨_, rfl⟩ := raiseIf_ok h1
    obtain ⟨_, _, h1, hu⟩ := exec_bind_ok hu
    obtain ⟨_, rfl⟩ := raiseIf_ok h1
    cases hu
    exact h.frame.trans _ _ _ (h.store _ _ _) (h.store _ _ _)

theorem keeps_translate (h : MmuClosed R) (acc : Access) (lin : Word32) : Keeps R (translate acc lin) := by
  refine keeps_bind h.frame (keeps_get h.frame) fun s => ?_
  split
  · exact keeps_pure h.frame lin
  dsimp only
  split
  · refine keeps_bind h.frame (keeps_walk h acc lin) fun e => ?_
    refine keeps_bind h.frame (keeps_fillTlb h _ e) fun _ => ?_
    exact keeps_pure h.frame _
  · refine keeps_bind h.frame (keeps_raiseIf h.frame _ _) fun _ => ?_
    split
    · refine keeps_bind h.frame (keeps_walk h acc lin) fun e => ?_
      refine keeps_bind h.frame (keeps_setTlb h _ _ e) fun _ => ?_
      exact keeps_pure h.frame _
    · exact keeps_pure h.frame _
  · exact keeps_refuse _

theorem keeps_nextByte (h : MmuClosed R) (acc : Access) (prev : Option Word32) (lin : Word32) :
    Keeps R (nextByte acc prev lin) := by
  cases prev with
  | none => exact keeps_translate h acc lin
  | some p => exact keeps_ite (keeps_translate h acc lin) (keeps_pure h.frame _)

theorem keeps_translateFrom (h : MmuClosed R) (acc : Access) (n : Nat) (prev : Option Word32) (lin : Word32) :
    Keeps R (translateFrom acc n prev lin) := by
  induction n generalizing prev lin with
  | zero => exact keeps_pure h.frame _
  | succ n ih =>
    refine keeps_bind h.frame (keeps_nextByte h acc prev lin) fun pa => ?_
    · refine keeps_bind h.frame (ih _ _) fun pas => ?_
      exact keeps_pure h.frame _

theorem keeps_translateRange (h : MmuClosed R) (acc : Access) (lin : Word32) (n : Nat) :
    Keeps R (translateRange acc lin n) := by
  refine keeps_bind h.frame (keeps_translateFrom h acc n none lin) fun pas => ?_
  refine keeps_bind h.frame (keeps_get h.frame) fun s => ?_
  exact keeps_bind h.frame (keeps_refuseIf h.frame _ _) fun _ => keeps_pure h.frame _

theorem keeps_memRead (h : MmuClosed R) (acc : Access) (lin : Word32) (n : Nat) : Keeps R (memRead acc lin n) := by
  refine keeps_bind h.frame (keeps_translateRange h acc lin n) fun pas => ?_
  refine keeps_bind h.frame (keeps_get h.frame) fun s => ?_
  exact keeps_pure h.frame _

theorem keeps_memWrite (h : MmuClosed R) (acc : Access) (lin : Word32) (n v : Nat) : Keeps R (memWrite acc lin n v) := by
  refine keeps_bind h.frame (keeps_translateRange h acc lin n) fun pas => ?_
  exact keeps_modify fun s => h.store s pas _

theorem keeps_sysRead (h : MmuClosed R) (lin : Word32) (n : Nat) : Keeps R (sysRead lin n) :=
  keeps_memRead h _ lin n

theorem keeps_sysWrite (h : MmuClosed R) (lin : Word32) (n v : Nat) : Keeps R (sysWrite lin n v) :=
  keeps_memWrite h _ lin n v

theorem keeps_readDescriptor (h : MmuClosed R) (sel : Word16) (bad : Exn) : Keeps R (readDescriptor sel bad) := by
  refine keeps_bind h.frame (keeps_get h.frame) fun s => ?_
  refine keeps_bind h.frame (keeps_raiseIf h.frame _ _) fun _ => ?_
  refine keeps_bind h.frame (keeps_sysRead h _ _) fun v => ?_
  exact keeps_pure h.frame _

theorem keeps_updateType (h : MmuClosed R) (sel : Word16) (n : Nat) (b : Bool) : Keeps R (updateType sel n b) := by
  refine keeps_bind h.frame (keeps_get h.frame) fun s => ?_
  refine keeps_bind h.frame (keeps_sysRead h _ _) fun v => ?_
  exact keeps_sysWrite h _ _ _

/-! ### Operands of an instruction -/

theorem OperandClosed.noted (h : OperandClosed R) (s : State) (a : BpAccess) : R s (s.noted a) :=
  h.frame.trans s { s with pending := (s.noted a).pending } _ (h.pending s _)
    (h.draws { s with pending := (s.noted a).pending } (s.noted a).draws)

theorem keeps_noteData (h : OperandClosed R) (write : Bool) (lin : Word32) (n : Nat) : Keeps R (noteData write lin n) := by
  exact keeps_modify fun s => h.noted s _

theorem keeps_operandBytes (h : OperandClosed R) (r : SegReg) (write : Bool) (off : Word32) (n : Nat) :
    Keeps R (operandBytes r write off n) := by
  refine keeps_bind h.frame (keeps_get h.frame) fun s => ?_
  refine keeps_bind h.frame (keeps_raiseIf h.frame _ _) fun _ => ?_
  refine keeps_bind h.frame (keeps_translateRange h.toMmuClosed _ _ _) fun pas => ?_
  refine keeps_bind h.frame (keeps_noteData h _ _ _) fun _ => ?_
  exact keeps_pure h.frame _

theorem keeps_checkAlignment (h : IsFrame R) (r : SegReg) (off : Word32) (n : Nat) : Keeps R (checkAlignment r off n) :=
  keeps_bind h (keeps_get h) fun _ => keeps_raiseIf h _ _

theorem keeps_lmemRead (h : OperandClosed R) (r : SegReg) (off : Word32) (n : Nat) : Keeps R (lmemRead r off n) := by
  refine keeps_bind h.frame (keeps_operandBytes h _ _ _ _) fun pas => ?_
  refine keeps_bind h.frame (keeps_checkAlignment h.frame _ _ _) fun _ => ?_
  refine keeps_bind h.frame (keeps_get h.frame) fun s => ?_
  exact keeps_pure h.frame _

theorem keeps_lmemWrite (h : OperandClosed R) (r : SegReg) (off : Word32) (n v : Nat) : Keeps R (lmemWrite r off n v) := by
  refine keeps_bind h.frame (keeps_operandBytes h _ _ _ _) fun pas => ?_
  refine keeps_bind h.frame (keeps_checkAlignment h.frame _ _ _) fun _ => ?_
  exact keeps_modify fun s => h.store s pas _

theorem keeps_readRm16 (h : OperandClosed R) (p : List Prefix) (o : RmOp) : Keeps R (readRm16 p o) := by
  cases o with
  | reg r => exact keeps_bind h.frame (keeps_get h.frame) fun s => keeps_pure h.frame _
  | mem16 a =>
    refine keeps_bind h.frame (keeps_get h.frame) fun s => ?_
    exact keeps_bind h.frame (keeps_lmemRead h _ _ _) fun v => keeps_pure h.frame _
  | mem32 a =>
    refine keeps_bind h.frame (keeps_get h.frame) fun s => ?_
    exact keeps_bind h.frame (keeps_lmemRead h _ _ _) fun v => keeps_pure h.frame _

theorem keeps_storeReg16 (h : OperandClosed R) (hr : ∀ s r v, R s (State.setReg s r v)) (z : OpSize) (r : Gpr) (v : Word16) :
    Keeps R (storeReg16 z r v) := by
  cases z with
  | s16 => exact keeps_modify fun s => hr s r _
  | s32 => exact keeps_bind h.frame (keeps_draw h.toMmuClosed) fun k => keeps_modify fun s => hr s r _

/-- A relation that also holds over a write of a general register keeps over an r/m16 store. -/
theorem keeps_writeRm16 (h : OperandClosed R) (hr : ∀ s r v, R s (State.setReg s r v)) (p : List Prefix) (v : Word16)
    (o : RmOp) : Keeps R (writeRm16 p v o) := by
  cases o with
  | reg r =>
    exact keeps_bind h.frame (keeps_get h.frame) fun s => keeps_storeReg16 h hr _ r v
  | mem16 a => exact keeps_bind h.frame (keeps_get h.frame) fun s => keeps_lmemWrite h _ _ _ _
  | mem32 a => exact keeps_bind h.frame (keeps_get h.frame) fun s => keeps_lmemWrite h _ _ _ _

theorem keeps_imageBytes (h : OperandClosed R) (p : List Prefix) (o : RmOp) (write : Bool) :
    Keeps R (imageBytes p o write) := by
  refine keeps_bind h.frame (keeps_get h.frame) fun s => ?_
  refine keeps_bind h.frame (keeps_operandBytes h _ _ _ _) fun lo => ?_
  refine keeps_bind h.frame (keeps_operandBytes h _ _ _ _) fun hi => ?_
  refine keeps_bind h.frame (keeps_checkAlignment h.frame _ _ _) fun _ => ?_
  exact keeps_pure h.frame _

theorem keeps_readTable (h : OperandClosed R) (p : List Prefix) (o : RmOp) : Keeps R (readTable p o) := by
  refine keeps_bind h.frame (keeps_imageBytes h p o false) fun pas => ?_
  exact keeps_bind h.frame (keeps_get h.frame) fun s => keeps_pure h.frame _

theorem keeps_writeTable (h : OperandClosed R) (p : List Prefix) (o : RmOp) (t : TableReg) : Keeps R (writeTable p o t) := by
  refine keeps_bind h.frame (keeps_imageBytes h p o true) fun pas => ?_
  refine keeps_bind h.frame (keeps_draw h.toMmuClosed) fun k => ?_
  exact keeps_modify fun s => h.store s pas _

theorem keeps_readFar (h : OperandClosed R) (p : List Prefix) (o : RmOp) : Keeps R (readFar p o) := by
  refine keeps_bind h.frame (keeps_get h.frame) fun s => ?_
  split
  · exact keeps_bind h.frame (keeps_lmemRead h _ _ _) fun v => keeps_pure h.frame _
  · exact keeps_bind h.frame (keeps_lmemRead h _ _ _) fun v => keeps_pure h.frame _

/-! ### Task state segments -/

theorem keeps_tss32 (h : MmuClosed R) (base off : Word32) : Keeps R (tss32 base off) :=
  keeps_bind h.frame (keeps_sysRead h _ _) fun _ => keeps_pure h.frame _

theorem keeps_tss16 (h : MmuClosed R) (base off : Word32) : Keeps R (tss16 base off) :=
  keeps_bind h.frame (keeps_sysRead h _ _) fun _ => keeps_pure h.frame _

theorem keeps_readTssGprs32 (h : MmuClosed R) (base : Word32) : Keeps R (readTssGprs32 base) := by
  unfold readTssGprs32
  repeat refine keeps_bind h.frame (keeps_tss32 h base _) fun _ => ?_
  exact keeps_pure h.frame _

theorem keeps_readTssGprs16 (h : MmuClosed R) (base : Word32) : Keeps R (readTssGprs16 base) := by
  refine keeps_bind h.frame (keeps_draw h) fun k => ?_
  repeat refine keeps_bind h.frame (keeps_tss16 h base _) fun _ => ?_
  exact keeps_pure h.frame _

theorem keeps_readContext16 (h : MmuClosed R) (base : Word32) : Keeps R (readContext16 base) := by
  refine keeps_bind h.frame (keeps_get h.frame) fun s => ?_
  refine keeps_bind h.frame (keeps_tss16 h base _) fun _ => ?_
  refine keeps_bind h.frame (keeps_tss16 h base _) fun _ => ?_
  refine keeps_bind h.frame (keeps_readTssGprs16 h base) fun _ => ?_
  repeat refine keeps_bind h.frame (keeps_tss16 h base _) fun _ => ?_
  exact keeps_pure h.frame _

theorem keeps_readContext32 (h : MmuClosed R) (base : Word32) : Keeps R (readContext32 base) := by
  refine keeps_bind h.frame (keeps_get h.frame) fun s => ?_
  refine keeps_bind h.frame (keeps_tss32 h base _) fun _ => ?_
  refine keeps_bind h.frame (keeps_tss32 h base _) fun _ => ?_
  refine keeps_bind h.frame (keeps_tss32 h base _) fun _ => ?_
  refine keeps_bind h.frame (keeps_readTssGprs32 h base) fun _ => ?_
  repeat refine keeps_bind h.frame (keeps_tss16 h base _) fun _ => ?_
  refine keeps_bind h.frame (keeps_sysRead h _ _) fun _ => ?_
  exact keeps_pure h.frame _

theorem keeps_readContext (h : MmuClosed R) (d : SegCache) : Keeps R (readContext d) :=
  keeps_ite (keeps_readContext16 h _) (keeps_readContext32 h _)

theorem keeps_saveContext16 (h : MmuClosed R) (base eip eflags : Word32) : Keeps R (saveContext16 base eip eflags) := by
  refine keeps_bind h.frame (keeps_get h.frame) fun s => ?_
  repeat refine keeps_bind h.frame (keeps_sysWrite h _ _ _) fun _ => ?_
  exact keeps_sysWrite h _ _ _

theorem keeps_saveContext32 (h : MmuClosed R) (base eip eflags : Word32) : Keeps R (saveContext32 base eip eflags) := by
  refine keeps_bind h.frame (keeps_get h.frame) fun s => ?_
  repeat refine keeps_bind h.frame (keeps_sysWrite h _ _ _) fun _ => ?_
  exact keeps_sysWrite h _ _ _

theorem keeps_saveContext (h : MmuClosed R) (c : SegCache) (eip eflags : Word32) : Keeps R (saveContext c eip eflags) :=
  keeps_ite (keeps_saveContext16 h _ _ _) (keeps_saveContext32 h _ _ _)

theorem keeps_markBusy (h : MmuClosed R) (sel : Word16) (busy : Bool) : Keeps R (markBusy sel busy) :=
  keeps_updateType h sel 1 busy

theorem keeps_findTss (h : MmuClosed R) (sel : Word16) (busy : Bool) (bad : Exn) (ext : Word32) :
    Keeps R (findTss sel busy bad ext) := by
  refine keeps_bind h.frame (keeps_raiseIf h.frame _ _) fun _ => ?_
  refine keeps_bind h.frame (keeps_readDescriptor h _ _) fun d => ?_
  refine keeps_bind h.frame (keeps_raiseIf h.frame _ _) fun _ => ?_
  refine keeps_bind h.frame (keeps_raiseIf h.frame _ _) fun _ => ?_
  exact keeps_pure h.frame _

end Sys2Proof.Machine
end

