-- ==== Sys2Proof/Laws/Memory.lean ====
section
/-! SUPPORT. Memory keeps its canonical form; what a read gives after a write. -/

namespace Sys2Proof.Machine

/-- A lower bound may be lowered. -/
theorem wfFrom_mono {lo lo' : Nat} {m : Memory} (h : Memory.wfFrom lo m = true) (hl : lo' ≤ lo) :
    Memory.wfFrom lo' m = true := by
  cases m with
  | nil => rfl
  | cons c m =>
    simp only [Memory.wfFrom, Bool.and_eq_true, decide_eq_true_eq] at h ⊢
    exact ⟨⟨⟨by omega, h.1.1.2⟩, h.1.2⟩, h.2⟩

theorem wfFrom_cons {lo a : Nat} {v : Byte} {m : Memory} (ha : lo ≤ a) (hb : a < 2 ^ 32)
    (h : Memory.wfFrom (a + 1) m = true) : Memory.wfFrom lo (Memory.cons a v m) = true := by
  unfold Memory.cons
  split
  · exact wfFrom_mono h (by omega)
  · next hv =>
    simp only [Memory.wfFrom, Bool.and_eq_true, decide_eq_true_eq]
    exact ⟨⟨⟨ha, hb⟩, hv⟩, h⟩

theorem wfFrom_write {lo a : Nat} {v : Byte} {m : Memory} (ha : lo ≤ a) (hb : a < 2 ^ 32)
    (h : Memory.wfFrom lo m = true) : Memory.wfFrom lo (Memory.write m a v) = true := by
  induction m generalizing lo with
  | nil => exact wfFrom_cons ha hb rfl
  | cons c m ih =>
    obtain ⟨k, w⟩ := c
    simp only [Memory.wfFrom, Bool.and_eq_true, decide_eq_true_eq] at h
    obtain ⟨⟨⟨h1, h2⟩, h3⟩, h4⟩ := h
    unfold Memory.write
    split
    · next hlt =>
      refine wfFrom_cons ha hb ?_
      simp only [Memory.wfFrom, Bool.and_eq_true, decide_eq_true_eq]
      exact ⟨⟨⟨by omega, h2⟩, h3⟩, h4⟩
    · split
      · next heq => exact wfFrom_cons ha hb (heq ▸ h4)
      · next hlt hne =>
        simp only [Memory.wfFrom, Bool.and_eq_true, decide_eq_true_eq]
        exact ⟨⟨⟨h1, h2⟩, h3⟩, ih (by omega) h4⟩

/-- A write of one byte keeps the canonical form. -/
theorem wf_write {m : Memory} (a : Nat) (v : Byte) (hb : a < 2 ^ 32) (h : Memory.wf m = true) :
    Memory.wf (Memory.write m a v) = true := wfFrom_write (Nat.zero_le a) hb h

/-- Below its first address a canonical memory reads as unlisted. -/
theorem read_below {lo a : Nat} {m : Memory} (h : Memory.wfFrom lo m = true) (ha : a < lo) :
    Memory.read m a = unlisted := by
  cases m with
  | nil => rfl
  | cons c m =>
    simp only [Memory.wfFrom, Bool.and_eq_true, decide_eq_true_eq] at h
    simp only [Memory.read]
    rw [if_pos (by omega)]

theorem read_cons_same {a : Nat} {v : Byte} {m : Memory} (h : Memory.wfFrom (a + 1) m = true) :
    Memory.read (Memory.cons a v m) a = v := by
  unfold Memory.cons
  split
  · next hv => rw [hv]; exact read_below h (Nat.lt_succ_self a)
  · simp [Memory.read]

theorem read_cons_other {a b : Nat} {v : Byte} {m : Memory} (hab : b ≠ a) (h : Memory.wfFrom (a + 1) m = true) :
    Memory.read (Memory.cons a v m) b = Memory.read m b := by
  unfold Memory.cons
  split
  · rfl
  · simp only [Memory.read]
    split
    · next hlt => exact (read_below h (by omega)).symm
    · rfl

theorem read_write_from {lo a : Nat} {v : Byte} {m : Memory} (h : Memory.wfFrom lo m = true) :
    Memory.read (Memory.write m a v) a = v := by
  induction m generalizing lo with
  | nil => exact read_cons_same rfl
  | cons c m ih =>
    obtain ⟨k, w⟩ := c
    simp only [Memory.wfFrom, Bool.and_eq_true, decide_eq_true_eq] at h
    obtain ⟨⟨⟨h1, h2⟩, h3⟩, h4⟩ := h
    unfold Memory.write
    split
    · next hlt =>
      refine read_cons_same ?_
      simp only [Memory.wfFrom, Bool.and_eq_true, decide_eq_true_eq]
      exact ⟨⟨⟨by omega, h2⟩, h3⟩, h4⟩
    · split
      · next heq => exact read_cons_same (heq ▸ h4)
      · next hlt hne =>
        simp only [Memory.read]
        rw [if_neg hlt, if_neg hne]
        exact ih h4

theorem read_write_other_from {lo a b : Nat} {v : Byte} {m : Memory} (hab : b ≠ a) (h : Memory.wfFrom lo m = true) :
    Memory.read (Memory.write m a v) b = Memory.read m b := by
  induction m generalizing lo with
  | nil => exact read_cons_other hab rfl
  | cons c m ih =>
    obtain ⟨k, w⟩ := c
    simp only [Memory.wfFrom, Bool.and_eq_true, decide_eq_true_eq] at h
    obtain ⟨⟨⟨h1, h2⟩, h3⟩, h4⟩ := h
    unfold Memory.write
    split
    · next hlt =>
      refine read_cons_other hab ?_
      simp only [Memory.wfFrom, Bool.and_eq_true, decide_eq_true_eq]
      exact ⟨⟨⟨by omega, h2⟩, h3⟩, h4⟩
    · split
      · next heq =>
        subst heq
        rw [read_cons_other hab h4]
        simp only [Memory.read]
        split
        · next hb => exact read_below h4 (by omega)
        · rfl
      · next hlt hne =>
        simp only [Memory.read]
        rw [ih h4]

/-- A read gives what was written there. -/
theorem read_write {m : Memory} (a : Nat) (v : Byte) (h : Memory.wf m = true) :
    Memory.read (Memory.write m a v) a = v := read_write_from h

/-- A write leaves every other address alone. -/
theorem read_write_other {m : Memory} {a b : Nat} (v : Byte) (hab : b ≠ a) (h : Memory.wf m = true) :
    Memory.read (Memory.write m a v) b = Memory.read m b := read_write_other_from hab h

/-! ### Stores through the state -/

theorem storeByte_eq (s : State) (pa : Word32) (v : Byte) :
    s.storeByte pa v = { s with mem := (s.storeByte pa v).mem } := rfl

theorem storeByte_wf {s : State} (pa : Word32) (v : Byte) (h : Memory.wf s.mem = true) :
    Memory.wf (s.storeByte pa v).mem = true := by
  unfold State.storeByte
  dsimp only
  split
  · exact wf_write _ _ pa.isLt h
  · exact h

/-- A store keeps what answers where. -/
theorem storeByte_ram (s : State) (pa : Word32) (v : Byte) (pas : List Word32) : (s.storeByte pa v).ram pas = s.ram pas := rfl

theorem storeBytes_nil (s : State) (vs : List Byte) : s.storeBytes [] vs = s := by cases vs <;> rfl

/-- Stores change memory only. -/
theorem storeBytes_eq (s : State) (pas : List Word32) (vs : List Byte) :
    s.storeBytes pas vs = { s with mem := (s.storeBytes pas vs).mem } := by
  induction pas generalizing s vs with
  | nil => rw [storeBytes_nil]
  | cons pa pas ih =>
    cases vs with
    | nil => rfl
    | cons v vs =>
      show (s.storeByte pa v).storeBytes pas vs = _
      rw [ih]
      rfl

theorem storeBytes_wf {s : State} (pas : List Word32) (vs : List Byte) (h : Memory.wf s.mem = true) :
    Memory.wf (s.storeBytes pas vs).mem = true := by
  induction pas generalizing s vs with
  | nil => rw [storeBytes_nil]; exact h
  | cons pa pas ih =>
    cases vs with
    | nil => exact h
    | cons v vs => exact ih vs (storeByte_wf pa v h)

/-- Ordinary memory gives what was stored. -/
theorem physByte_storeByte {s : State} {pa : Word32} (v : Byte) (hr : s.part.kindAt pa = .ram) (h : Memory.wf s.mem = true) :
    (s.storeByte pa v).physByte pa = v := by
  unfold State.storeByte State.physByte
  rw [if_pos hr]
  exact read_write _ _ h

/-- A place that is no ordinary memory keeps its byte. -/
theorem storeByte_fixed {s : State} {pa : Word32} (v : Byte) (hr : s.part.kindAt pa ≠ .ram) : s.storeByte pa v = s := by
  unfold State.storeByte
  rw [if_neg hr]

theorem physByte_storeByte_other {s : State} {pa pb : Word32} (v : Byte) (hne : pb ≠ pa) (h : Memory.wf s.mem = true) :
    (s.storeByte pa v).physByte pb = s.physByte pb := by
  by_cases hr : s.part.kindAt pa = .ram
  · unfold State.storeByte State.physByte
    rw [if_pos hr]
    exact read_write_other v (fun he => hne (BitVec.eq_of_toNat_eq he)) h
  · rw [storeByte_fixed v hr]

/-- Stores leave every address alone that they do not name. -/
theorem physByte_storeBytes_other {s : State} {pas : List Word32} (vs : List Byte) {pb : Word32} (hne : pb ∉ pas)
    (h : Memory.wf s.mem = true) : (s.storeBytes pas vs).physByte pb = s.physByte pb := by
  induction pas generalizing s vs with
  | nil => rw [storeBytes_nil]
  | cons pa pas ih =>
    cases vs with
    | nil => rfl
    | cons v vs =>
      show ((s.storeByte pa v).storeBytes pas vs).physByte pb = _
      simp only [List.mem_cons, not_or] at hne
      rw [ih vs hne.2 (storeByte_wf pa v h), physByte_storeByte_other v hne.1 h]

/-- After stores to different addresses of ordinary memory those addresses read as stored. -/
theorem bytesAt_storeBytes {s : State} {pas : List Word32} {vs : List Byte} (hl : pas.length = vs.length)
    (hd : pas.Nodup) (hr : s.ram pas = true) (h : Memory.wf s.mem = true) :
    pas.map (s.storeBytes pas vs).physByte = vs := by
  induction pas generalizing s vs with
  | nil => cases vs with
    | nil => rfl
    | cons v vs => cases hl
  | cons pa pas ih =>
    cases vs with
    | nil => cases hl
    | cons v vs =>
      obtain ⟨hn, hd⟩ := List.nodup_cons.mp hd
      have hw := storeByte_wf pa v h
      simp only [State.ram, List.all_cons, Bool.and_eq_true, beq_iff_eq] at hr
      simp only [List.map_cons]
      show ((s.storeByte pa v).storeBytes pas vs).physByte pa :: pas.map ((s.storeByte pa v).storeBytes pas vs).physByte = _
      rw [physByte_storeBytes_other vs hn hw, physByte_storeByte v hr.1 h, ih (s := s.storeByte pa v) (by simpa using hl) hd hr.2 hw]

end Sys2Proof.Machine
end

