-- ==== Sys2Proof/Laws/State.lean ====
section
/-! SUPPORT. What each named update leaves in each field of the state. -/

namespace Sys2Proof.Machine

/-! ### setReg -/

@[simp] theorem setReg_gpr (s : State) (r : Gpr) (v : Word32) : (s.setReg r v).gpr = s.gpr.set r v := rfl
@[simp] theorem setReg_eip (s : State) (r : Gpr) (v : Word32) : (s.setReg r v).eip = s.eip := rfl
@[simp] theorem setReg_eflags (s : State) (r : Gpr) (v : Word32) : (s.setReg r v).eflags = s.eflags := rfl
@[simp] theorem setReg_segs (s : State) (r : Gpr) (v : Word32) : (s.setReg r v).segs = s.segs := rfl
@[simp] theorem setReg_gdtr (s : State) (r : Gpr) (v : Word32) : (s.setReg r v).gdtr = s.gdtr := rfl
@[simp] theorem setReg_idtr (s : State) (r : Gpr) (v : Word32) : (s.setReg r v).idtr = s.idtr := rfl
@[simp] theorem setReg_ldtr (s : State) (r : Gpr) (v : Word32) : (s.setReg r v).ldtr = s.ldtr := rfl
@[simp] theorem setReg_tr (s : State) (r : Gpr) (v : Word32) : (s.setReg r v).tr = s.tr := rfl
@[simp] theorem setReg_cr0 (s : State) (r : Gpr) (v : Word32) : (s.setReg r v).cr0 = s.cr0 := rfl
@[simp] theorem setReg_cr2 (s : State) (r : Gpr) (v : Word32) : (s.setReg r v).cr2 = s.cr2 := rfl
@[simp] theorem setReg_cr3 (s : State) (r : Gpr) (v : Word32) : (s.setReg r v).cr3 = s.cr3 := rfl
@[simp] theorem setReg_cr4 (s : State) (r : Gpr) (v : Word32) : (s.setReg r v).cr4 = s.cr4 := rfl
@[simp] theorem setReg_dr0 (s : State) (r : Gpr) (v : Word32) : (s.setReg r v).dr0 = s.dr0 := rfl
@[simp] theorem setReg_dr1 (s : State) (r : Gpr) (v : Word32) : (s.setReg r v).dr1 = s.dr1 := rfl
@[simp] theorem setReg_dr2 (s : State) (r : Gpr) (v : Word32) : (s.setReg r v).dr2 = s.dr2 := rfl
@[simp] theorem setReg_dr3 (s : State) (r : Gpr) (v : Word32) : (s.setReg r v).dr3 = s.dr3 := rfl
@[simp] theorem setReg_dr6 (s : State) (r : Gpr) (v : Word32) : (s.setReg r v).dr6 = s.dr6 := rfl
@[simp] theorem setReg_dr7 (s : State) (r : Gpr) (v : Word32) : (s.setReg r v).dr7 = s.dr7 := rfl
@[simp] theorem setReg_tr6 (s : State) (r : Gpr) (v : Word32) : (s.setReg r v).tr6 = s.tr6 := rfl
@[simp] theorem setReg_tr7 (s : State) (r : Gpr) (v : Word32) : (s.setReg r v).tr7 = s.tr7 := rfl
@[simp] theorem setReg_tlb (s : State) (r : Gpr) (v : Word32) : (s.setReg r v).tlb = s.tlb := rfl
@[simp] theorem setReg_msr (s : State) (r : Gpr) (v : Word32) : (s.setReg r v).msr = s.msr := rfl
@[simp] theorem setReg_cplField (s : State) (r : Gpr) (v : Word32) : (s.setReg r v).cplField = s.cplField := rfl
@[simp] theorem setReg_nmiBlocked (s : State) (r : Gpr) (v : Word32) : (s.setReg r v).nmiBlocked = s.nmiBlocked := rfl
@[simp] theorem setReg_activity (s : State) (r : Gpr) (v : Word32) : (s.setReg r v).activity = s.activity := rfl
@[simp] theorem setReg_pending (s : State) (r : Gpr) (v : Word32) : (s.setReg r v).pending = s.pending := rfl
@[simp] theorem setReg_env (s : State) (r : Gpr) (v : Word32) : (s.setReg r v).env = s.env := rfl
@[simp] theorem setReg_mem (s : State) (r : Gpr) (v : Word32) : (s.setReg r v).mem = s.mem := rfl
@[simp] theorem setReg_part (s : State) (r : Gpr) (v : Word32) : (s.setReg r v).part = s.part := rfl
@[simp] theorem setReg_draws (s : State) (r : Gpr) (v : Word32) : (s.setReg r v).draws = s.draws := rfl

/-! ### setSeg -/

@[simp] theorem setSeg_gpr (s : State) (r : SegReg) (v : SegState) : (s.setSeg r v).gpr = s.gpr := rfl
@[simp] theorem setSeg_eip (s : State) (r : SegReg) (v : SegState) : (s.setSeg r v).eip = s.eip := rfl
@[simp] theorem setSeg_eflags (s : State) (r : SegReg) (v : SegState) : (s.setSeg r v).eflags = s.eflags := rfl
@[simp] theorem setSeg_segs (s : State) (r : SegReg) (v : SegState) : (s.setSeg r v).segs = s.segs.set r v := rfl
@[simp] theorem setSeg_gdtr (s : State) (r : SegReg) (v : SegState) : (s.setSeg r v).gdtr = s.gdtr := rfl
@[simp] theorem setSeg_idtr (s : State) (r : SegReg) (v : SegState) : (s.setSeg r v).idtr = s.idtr := rfl
@[simp] theorem setSeg_ldtr (s : State) (r : SegReg) (v : SegState) : (s.setSeg r v).ldtr = s.ldtr := rfl
@[simp] theorem setSeg_tr (s : State) (r : SegReg) (v : SegState) : (s.setSeg r v).tr = s.tr := rfl
@[simp] theorem setSeg_cr0 (s : State) (r : SegReg) (v : SegState) : (s.setSeg r v).cr0 = s.cr0 := rfl
@[simp] theorem setSeg_cr2 (s : State) (r : SegReg) (v : SegState) : (s.setSeg r v).cr2 = s.cr2 := rfl
@[simp] theorem setSeg_cr3 (s : State) (r : SegReg) (v : SegState) : (s.setSeg r v).cr3 = s.cr3 := rfl
@[simp] theorem setSeg_cr4 (s : State) (r : SegReg) (v : SegState) : (s.setSeg r v).cr4 = s.cr4 := rfl
@[simp] theorem setSeg_dr0 (s : State) (r : SegReg) (v : SegState) : (s.setSeg r v).dr0 = s.dr0 := rfl
@[simp] theorem setSeg_dr1 (s : State) (r : SegReg) (v : SegState) : (s.setSeg r v).dr1 = s.dr1 := rfl
@[simp] theorem setSeg_dr2 (s : State) (r : SegReg) (v : SegState) : (s.setSeg r v).dr2 = s.dr2 := rfl
@[simp] theorem setSeg_dr3 (s : State) (r : SegReg) (v : SegState) : (s.setSeg r v).dr3 = s.dr3 := rfl
@[simp] theorem setSeg_dr6 (s : State) (r : SegReg) (v : SegState) : (s.setSeg r v).dr6 = s.dr6 := rfl
@[simp] theorem setSeg_dr7 (s : State) (r : SegReg) (v : SegState) : (s.setSeg r v).dr7 = s.dr7 := rfl
@[simp] theorem setSeg_tr6 (s : State) (r : SegReg) (v : SegState) : (s.setSeg r v).tr6 = s.tr6 := rfl
@[simp] theorem setSeg_tr7 (s : State) (r : SegReg) (v : SegState) : (s.setSeg r v).tr7 = s.tr7 := rfl
@[simp] theorem setSeg_tlb (s : State) (r : SegReg) (v : SegState) : (s.setSeg r v).tlb = s.tlb := rfl
@[simp] theorem setSeg_msr (s : State) (r : SegReg) (v : SegState) : (s.setSeg r v).msr = s.msr := rfl
@[simp] theorem setSeg_cplField (s : State) (r : SegReg) (v : SegState) : (s.setSeg r v).cplField = s.cplField := rfl
@[simp] theorem setSeg_nmiBlocked (s : State) (r : SegReg) (v : SegState) : (s.setSeg r v).nmiBlocked = s.nmiBlocked := rfl
@[simp] theorem setSeg_activity (s : State) (r : SegReg) (v : SegState) : (s.setSeg r v).activity = s.activity := rfl
@[simp] theorem setSeg_pending (s : State) (r : SegReg) (v : SegState) : (s.setSeg r v).pending = s.pending := rfl
@[simp] theorem setSeg_env (s : State) (r : SegReg) (v : SegState) : (s.setSeg r v).env = s.env := rfl
@[simp] theorem setSeg_mem (s : State) (r : SegReg) (v : SegState) : (s.setSeg r v).mem = s.mem := rfl
@[simp] theorem setSeg_part (s : State) (r : SegReg) (v : SegState) : (s.setSeg r v).part = s.part := rfl
@[simp] theorem setSeg_draws (s : State) (r : SegReg) (v : SegState) : (s.setSeg r v).draws = s.draws := rfl

/-! ### storeBytes -/

@[simp] theorem storeBytes_gpr (s : State) (a : List Word32) (b : List Byte) : (s.storeBytes a b).gpr = s.gpr := by rw [storeBytes_eq]
@[simp] theorem storeBytes_eip (s : State) (a : List Word32) (b : List Byte) : (s.storeBytes a b).eip = s.eip := by rw [storeBytes_eq]
@[simp] theorem storeBytes_eflags (s : State) (a : List Word32) (b : List Byte) : (s.storeBytes a b).eflags = s.eflags := by rw [storeBytes_eq]
@[simp] theorem storeBytes_segs (s : State) (a : List Word32) (b : List Byte) : (s.storeBytes a b).segs = s.segs := by rw [storeBytes_eq]
@[simp] theorem storeBytes_gdtr (s : State) (a : List Word32) (b : List Byte) : (s.storeBytes a b).gdtr = s.gdtr := by rw [storeBytes_eq]
@[simp] theorem storeBytes_idtr (s : State) (a : List Word32) (b : List Byte) : (s.storeBytes a b).idtr = s.idtr := by rw [storeBytes_eq]
@[simp] theorem storeBytes_ldtr (s : State) (a : List Word32) (b : List Byte) : (s.storeBytes a b).ldtr = s.ldtr := by rw [storeBytes_eq]
@[simp] theorem storeBytes_tr (s : State) (a : List Word32) (b : List Byte) : (s.storeBytes a b).tr = s.tr := by rw [storeBytes_eq]
@[simp] theorem storeBytes_cr0 (s : State) (a : List Word32) (b : List Byte) : (s.storeBytes a b).cr0 = s.cr0 := by rw [storeBytes_eq]
@[simp] theorem storeBytes_cr2 (s : State) (a : List Word32) (b : List Byte) : (s.storeBytes a b).cr2 = s.cr2 := by rw [storeBytes_eq]
@[simp] theorem storeBytes_cr3 (s : State) (a : List Word32) (b : List Byte) : (s.storeBytes a b).cr3 = s.cr3 := by rw [storeBytes_eq]
@[simp] theorem storeBytes_cr4 (s : State) (a : List Word32) (b : List Byte) : (s.storeBytes a b).cr4 = s.cr4 := by rw [storeBytes_eq]
@[simp] theorem storeBytes_dr0 (s : State) (a : List Word32) (b : List Byte) : (s.storeBytes a b).dr0 = s.dr0 := by rw [storeBytes_eq]
@[simp] theorem storeBytes_dr1 (s : State) (a : List Word32) (b : List Byte) : (s.storeBytes a b).dr1 = s.dr1 := by rw [storeBytes_eq]
@[simp] theorem storeBytes_dr2 (s : State) (a : List Word32) (b : List Byte) : (s.storeBytes a b).dr2 = s.dr2 := by rw [storeBytes_eq]
@[simp] theorem storeBytes_dr3 (s : State) (a : List Word32) (b : List Byte) : (s.storeBytes a b).dr3 = s.dr3 := by rw [storeBytes_eq]
@[simp] theorem storeBytes_dr6 (s : State) (a : List Word32) (b : List Byte) : (s.storeBytes a b).dr6 = s.dr6 := by rw [storeBytes_eq]
@[simp] theorem storeBytes_dr7 (s : State) (a : List Word32) (b : List Byte) : (s.storeBytes a b).dr7 = s.dr7 := by rw [storeBytes_eq]
@[simp] theorem storeBytes_tr6 (s : State) (a : List Word32) (b : List Byte) : (s.storeBytes a b).tr6 = s.tr6 := by rw [storeBytes_eq]
@[simp] theorem storeBytes_tr7 (s : State) (a : List Word32) (b : List Byte) : (s.storeBytes a b).tr7 = s.tr7 := by rw [storeBytes_eq]
@[simp] theorem storeBytes_tlb (s : State) (a : List Word32) (b : List Byte) : (s.storeBytes a b).tlb = s.tlb := by rw [storeBytes_eq]
@[simp] theorem storeBytes_msr (s : State) (a : List Word32) (b : List Byte) : (s.storeBytes a b).msr = s.msr := by rw [storeBytes_eq]
@[simp] theorem storeBytes_cplField (s : State) (a : List Word32) (b : List Byte) : (s.storeBytes a b).cplField = s.cplField := by rw [storeBytes_eq]
@[simp] theorem storeBytes_nmiBlocked (s : State) (a : List Word32) (b : List Byte) : (s.storeBytes a b).nmiBlocked = s.nmiBlocked := by rw [storeBytes_eq]
@[simp] theorem storeBytes_activity (s : State) (a : List Word32) (b : List Byte) : (s.storeBytes a b).activity = s.activity := by rw [storeBytes_eq]
@[simp] theorem storeBytes_pending (s : State) (a : List Word32) (b : List Byte) : (s.storeBytes a b).pending = s.pending := by rw [storeBytes_eq]
@[simp] theorem storeBytes_env (s : State) (a : List Word32) (b : List Byte) : (s.storeBytes a b).env = s.env := by rw [storeBytes_eq]
@[simp] theorem storeBytes_part (s : State) (a : List Word32) (b : List Byte) : (s.storeBytes a b).part = s.part := by rw [storeBytes_eq]
@[simp] theorem storeBytes_draws (s : State) (a : List Word32) (b : List Byte) : (s.storeBytes a b).draws = s.draws := by rw [storeBytes_eq]

/-! ### flushTlb -/

@[simp] theorem flushTlb_gpr (s : State) : (s.flushTlb).gpr = s.gpr := rfl
@[simp] theorem flushTlb_eip (s : State) : (s.flushTlb).eip = s.eip := rfl
@[simp] theorem flushTlb_eflags (s : State) : (s.flushTlb).eflags = s.eflags := rfl
@[simp] theorem flushTlb_segs (s : State) : (s.flushTlb).segs = s.segs := rfl
@[simp] theorem flushTlb_gdtr (s : State) : (s.flushTlb).gdtr = s.gdtr := rfl
@[simp] theorem flushTlb_idtr (s : State) : (s.flushTlb).idtr = s.idtr := rfl
@[simp] theorem flushTlb_ldtr (s : State) : (s.flushTlb).ldtr = s.ldtr := rfl
@[simp] theorem flushTlb_tr (s : State) : (s.flushTlb).tr = s.tr := rfl
@[simp] theorem flushTlb_cr0 (s : State) : (s.flushTlb).cr0 = s.cr0 := rfl
@[simp] theorem flushTlb_cr2 (s : State) : (s.flushTlb).cr2 = s.cr2 := rfl
@[simp] theorem flushTlb_cr3 (s : State) : (s.flushTlb).cr3 = s.cr3 := rfl
@[simp] theorem flushTlb_cr4 (s : State) : (s.flushTlb).cr4 = s.cr4 := rfl
@[simp] theorem flushTlb_dr0 (s : State) : (s.flushTlb).dr0 = s.dr0 := rfl
@[simp] theorem flushTlb_dr1 (s : State) : (s.flushTlb).dr1 = s.dr1 := rfl
@[simp] theorem flushTlb_dr2 (s : State) : (s.flushTlb).dr2 = s.dr2 := rfl
@[simp] theorem flushTlb_dr3 (s : State) : (s.flushTlb).dr3 = s.dr3 := rfl
@[simp] theorem flushTlb_dr6 (s : State) : (s.flushTlb).dr6 = s.dr6 := rfl
@[simp] theorem flushTlb_dr7 (s : State) : (s.flushTlb).dr7 = s.dr7 := rfl
@[simp] theorem flushTlb_tr6 (s : State) : (s.flushTlb).tr6 = s.tr6 := rfl
@[simp] theorem flushTlb_tr7 (s : State) : (s.flushTlb).tr7 = s.tr7 := rfl
@[simp] theorem flushTlb_tlb (s : State) : (s.flushTlb).tlb = s.tlb.map fun e => { e with v := false } := rfl
@[simp] theorem flushTlb_msr (s : State) : (s.flushTlb).msr = s.msr := rfl
@[simp] theorem flushTlb_cplField (s : State) : (s.flushTlb).cplField = s.cplField := rfl
@[simp] theorem flushTlb_nmiBlocked (s : State) : (s.flushTlb).nmiBlocked = s.nmiBlocked := rfl
@[simp] theorem flushTlb_activity (s : State) : (s.flushTlb).activity = s.activity := rfl
@[simp] theorem flushTlb_pending (s : State) : (s.flushTlb).pending = s.pending := rfl
@[simp] theorem flushTlb_env (s : State) : (s.flushTlb).env = s.env := rfl
@[simp] theorem flushTlb_mem (s : State) : (s.flushTlb).mem = s.mem := rfl
@[simp] theorem flushTlb_part (s : State) : (s.flushTlb).part = s.part := rfl
@[simp] theorem flushTlb_draws (s : State) : (s.flushTlb).draws = s.draws := rfl

/-! ### setTlb -/

@[simp] theorem setTlb_gpr (s : State) (b : BitVec 2) (p : BitVec 20) (e : TlbEntry) : (s.setTlb b p e).gpr = s.gpr := rfl
@[simp] theorem setTlb_eip (s : State) (b : BitVec 2) (p : BitVec 20) (e : TlbEntry) : (s.setTlb b p e).eip = s.eip := rfl
@[simp] theorem setTlb_eflags (s : State) (b : BitVec 2) (p : BitVec 20) (e : TlbEntry) : (s.setTlb b p e).eflags = s.eflags := rfl
@[simp] theorem setTlb_segs (s : State) (b : BitVec 2) (p : BitVec 20) (e : TlbEntry) : (s.setTlb b p e).segs = s.segs := rfl
@[simp] theorem setTlb_gdtr (s : State) (b : BitVec 2) (p : BitVec 20) (e : TlbEntry) : (s.setTlb b p e).gdtr = s.gdtr := rfl
@[simp] theorem setTlb_idtr (s : State) (b : BitVec 2) (p : BitVec 20) (e : TlbEntry) : (s.setTlb b p e).idtr = s.idtr := rfl
@[simp] theorem setTlb_ldtr (s : State) (b : BitVec 2) (p : BitVec 20) (e : TlbEntry) : (s.setTlb b p e).ldtr = s.ldtr := rfl
@[simp] theorem setTlb_tr (s : State) (b : BitVec 2) (p : BitVec 20) (e : TlbEntry) : (s.setTlb b p e).tr = s.tr := rfl
@[simp] theorem setTlb_cr0 (s : State) (b : BitVec 2) (p : BitVec 20) (e : TlbEntry) : (s.setTlb b p e).cr0 = s.cr0 := rfl
@[simp] theorem setTlb_cr2 (s : State) (b : BitVec 2) (p : BitVec 20) (e : TlbEntry) : (s.setTlb b p e).cr2 = s.cr2 := rfl
@[simp] theorem setTlb_cr3 (s : State) (b : BitVec 2) (p : BitVec 20) (e : TlbEntry) : (s.setTlb b p e).cr3 = s.cr3 := rfl
@[simp] theorem setTlb_cr4 (s : State) (b : BitVec 2) (p : BitVec 20) (e : TlbEntry) : (s.setTlb b p e).cr4 = s.cr4 := rfl
@[simp] theorem setTlb_dr0 (s : State) (b : BitVec 2) (p : BitVec 20) (e : TlbEntry) : (s.setTlb b p e).dr0 = s.dr0 := rfl
@[simp] theorem setTlb_dr1 (s : State) (b : BitVec 2) (p : BitVec 20) (e : TlbEntry) : (s.setTlb b p e).dr1 = s.dr1 := rfl
@[simp] theorem setTlb_dr2 (s : State) (b : BitVec 2) (p : BitVec 20) (e : TlbEntry) : (s.setTlb b p e).dr2 = s.dr2 := rfl
@[simp] theorem setTlb_dr3 (s : State) (b : BitVec 2) (p : BitVec 20) (e : TlbEntry) : (s.setTlb b p e).dr3 = s.dr3 := rfl
@[simp] theorem setTlb_dr6 (s : State) (b : BitVec 2) (p : BitVec 20) (e : TlbEntry) : (s.setTlb b p e).dr6 = s.dr6 := rfl
@[simp] theorem setTlb_dr7 (s : State) (b : BitVec 2) (p : BitVec 20) (e : TlbEntry) : (s.setTlb b p e).dr7 = s.dr7 := rfl
@[simp] theorem setTlb_tr6 (s : State) (b : BitVec 2) (p : BitVec 20) (e : TlbEntry) : (s.setTlb b p e).tr6 = s.tr6 := rfl
@[simp] theorem setTlb_tr7 (s : State) (b : BitVec 2) (p : BitVec 20) (e : TlbEntry) : (s.setTlb b p e).tr7 = s.tr7 := rfl
@[simp] theorem setTlb_tlb (s : State) (b : BitVec 2) (p : BitVec 20) (e : TlbEntry) : (s.setTlb b p e).tlb = s.tlb.set (s.tlbSlot b p) e := rfl
@[simp] theorem setTlb_msr (s : State) (b : BitVec 2) (p : BitVec 20) (e : TlbEntry) : (s.setTlb b p e).msr = s.msr := rfl
@[simp] theorem setTlb_cplField (s : State) (b : BitVec 2) (p : BitVec 20) (e : TlbEntry) : (s.setTlb b p e).cplField = s.cplField := rfl
@[simp] theorem setTlb_nmiBlocked (s : State) (b : BitVec 2) (p : BitVec 20) (e : TlbEntry) : (s.setTlb b p e).nmiBlocked = s.nmiBlocked := rfl
@[simp] theorem setTlb_activity (s : State) (b : BitVec 2) (p : BitVec 20) (e : TlbEntry) : (s.setTlb b p e).activity = s.activity := rfl
@[simp] theorem setTlb_pending (s : State) (b : BitVec 2) (p : BitVec 20) (e : TlbEntry) : (s.setTlb b p e).pending = s.pending := rfl
@[simp] theorem setTlb_env (s : State) (b : BitVec 2) (p : BitVec 20) (e : TlbEntry) : (s.setTlb b p e).env = s.env := rfl
@[simp] theorem setTlb_mem (s : State) (b : BitVec 2) (p : BitVec 20) (e : TlbEntry) : (s.setTlb b p e).mem = s.mem := rfl
@[simp] theorem setTlb_part (s : State) (b : BitVec 2) (p : BitVec 20) (e : TlbEntry) : (s.setTlb b p e).part = s.part := rfl
@[simp] theorem setTlb_draws (s : State) (b : BitVec 2) (p : BitVec 20) (e : TlbEntry) : (s.setTlb b p e).draws = s.draws := rfl

/-! ### setStackTop -/

@[simp] theorem setStackTop_eip (s : State) (v : Word32) : (s.setStackTop v).eip = s.eip := by unfold State.setStackTop; split <;> rfl
@[simp] theorem setStackTop_eflags (s : State) (v : Word32) : (s.setStackTop v).eflags = s.eflags := by unfold State.setStackTop; split <;> rfl
@[simp] theorem setStackTop_segs (s : State) (v : Word32) : (s.setStackTop v).segs = s.segs := by unfold State.setStackTop; split <;> rfl
@[simp] theorem setStackTop_gdtr (s : State) (v : Word32) : (s.setStackTop v).gdtr = s.gdtr := by unfold State.setStackTop; split <;> rfl
@[simp] theorem setStackTop_idtr (s : State) (v : Word32) : (s.setStackTop v).idtr = s.idtr := by unfold State.setStackTop; split <;> rfl
@[simp] theorem setStackTop_ldtr (s : State) (v : Word32) : (s.setStackTop v).ldtr = s.ldtr := by unfold State.setStackTop; split <;> rfl
@[simp] theorem setStackTop_tr (s : State) (v : Word32) : (s.setStackTop v).tr = s.tr := by unfold State.setStackTop; split <;> rfl
@[simp] theorem setStackTop_cr0 (s : State) (v : Word32) : (s.setStackTop v).cr0 = s.cr0 := by unfold State.setStackTop; split <;> rfl
@[simp] theorem setStackTop_cr2 (s : State) (v : Word32) : (s.setStackTop v).cr2 = s.cr2 := by unfold State.setStackTop; split <;> rfl
@[simp] theorem setStackTop_cr3 (s : State) (v : Word32) : (s.setStackTop v).cr3 = s.cr3 := by unfold State.setStackTop; split <;> rfl
@[simp] theorem setStackTop_cr4 (s : State) (v : Word32) : (s.setStackTop v).cr4 = s.cr4 := by unfold State.setStackTop; split <;> rfl
@[simp] theorem setStackTop_dr0 (s : State) (v : Word32) : (s.setStackTop v).dr0 = s.dr0 := by unfold State.setStackTop; split <;> rfl
@[simp] theorem setStackTop_dr1 (s : State) (v : Word32) : (s.setStackTop v).dr1 = s.dr1 := by unfold State.setStackTop; split <;> rfl
@[simp] theorem setStackTop_dr2 (s : State) (v : Word32) : (s.setStackTop v).dr2 = s.dr2 := by unfold State.setStackTop; split <;> rfl
@[simp] theorem setStackTop_dr3 (s : State) (v : Word32) : (s.setStackTop v).dr3 = s.dr3 := by unfold State.setStackTop; split <;> rfl
@[simp] theorem setStackTop_dr6 (s : State) (v : Word32) : (s.setStackTop v).dr6 = s.dr6 := by unfold State.setStackTop; split <;> rfl
@[simp] theorem setStackTop_dr7 (s : State) (v : Word32) : (s.setStackTop v).dr7 = s.dr7 := by unfold State.setStackTop; split <;> rfl
@[simp] theorem setStackTop_tr6 (s : State) (v : Word32) : (s.setStackTop v).tr6 = s.tr6 := by unfold State.setStackTop; split <;> rfl
@[simp] theorem setStackTop_tr7 (s : State) (v : Word32) : (s.setStackTop v).tr7 = s.tr7 := by unfold State.setStackTop; split <;> rfl
@[simp] theorem setStackTop_tlb (s : State) (v : Word32) : (s.setStackTop v).tlb = s.tlb := by unfold State.setStackTop; split <;> rfl
@[simp] theorem setStackTop_msr (s : State) (v : Word32) : (s.setStackTop v).msr = s.msr := by unfold State.setStackTop; split <;> rfl
@[simp] theorem setStackTop_cplField (s : State) (v : Word32) : (s.setStackTop v).cplField = s.cplField := by unfold State.setStackTop; split <;> rfl
@[simp] theorem setStackTop_nmiBlocked (s : State) (v : Word32) : (s.setStackTop v).nmiBlocked = s.nmiBlocked := by unfold State.setStackTop; split <;> rfl
@[simp] theorem setStackTop_activity (s : State) (v : Word32) : (s.setStackTop v).activity = s.activity := by unfold State.setStackTop; split <;> rfl
@[simp] theorem setStackTop_pending (s : State) (v : Word32) : (s.setStackTop v).pending = s.pending := by unfold State.setStackTop; split <;> rfl
@[simp] theorem setStackTop_env (s : State) (v : Word32) : (s.setStackTop v).env = s.env := by unfold State.setStackTop; split <;> rfl
@[simp] theorem setStackTop_mem (s : State) (v : Word32) : (s.setStackTop v).mem = s.mem := by unfold State.setStackTop; split <;> rfl
@[simp] theorem setStackTop_part (s : State) (v : Word32) : (s.setStackTop v).part = s.part := by unfold State.setStackTop; split <;> rfl
@[simp] theorem setStackTop_draws (s : State) (v : Word32) : (s.setStackTop v).draws = s.draws := by unfold State.setStackTop; split <;> rfl

/-! ### noted -/

@[simp] theorem noted_gpr (s : State) (a : BpAccess) : (s.noted a).gpr = s.gpr := rfl
@[simp] theorem noted_eip (s : State) (a : BpAccess) : (s.noted a).eip = s.eip := rfl
@[simp] theorem noted_eflags (s : State) (a : BpAccess) : (s.noted a).eflags = s.eflags := rfl
@[simp] theorem noted_segs (s : State) (a : BpAccess) : (s.noted a).segs = s.segs := rfl
@[simp] theorem noted_gdtr (s : State) (a : BpAccess) : (s.noted a).gdtr = s.gdtr := rfl
@[simp] theorem noted_idtr (s : State) (a : BpAccess) : (s.noted a).idtr = s.idtr := rfl
@[simp] theorem noted_ldtr (s : State) (a : BpAccess) : (s.noted a).ldtr = s.ldtr := rfl
@[simp] theorem noted_tr (s : State) (a : BpAccess) : (s.noted a).tr = s.tr := rfl
@[simp] theorem noted_cr0 (s : State) (a : BpAccess) : (s.noted a).cr0 = s.cr0 := rfl
@[simp] theorem noted_cr2 (s : State) (a : BpAccess) : (s.noted a).cr2 = s.cr2 := rfl
@[simp] theorem noted_cr3 (s : State) (a : BpAccess) : (s.noted a).cr3 = s.cr3 := rfl
@[simp] theorem noted_cr4 (s : State) (a : BpAccess) : (s.noted a).cr4 = s.cr4 := rfl
@[simp] theorem noted_dr0 (s : State) (a : BpAccess) : (s.noted a).dr0 = s.dr0 := rfl
@[simp] theorem noted_dr1 (s : State) (a : BpAccess) : (s.noted a).dr1 = s.dr1 := rfl
@[simp] theorem noted_dr2 (s : State) (a : BpAccess) : (s.noted a).dr2 = s.dr2 := rfl
@[simp] theorem noted_dr3 (s : State) (a : BpAccess) : (s.noted a).dr3 = s.dr3 := rfl
@[simp] theorem noted_dr6 (s : State) (a : BpAccess) : (s.noted a).dr6 = s.dr6 := rfl
@[simp] theorem noted_dr7 (s : State) (a : BpAccess) : (s.noted a).dr7 = s.dr7 := rfl
@[simp] theorem noted_tr6 (s : State) (a : BpAccess) : (s.noted a).tr6 = s.tr6 := rfl
@[simp] theorem noted_tr7 (s : State) (a : BpAccess) : (s.noted a).tr7 = s.tr7 := rfl
@[simp] theorem noted_tlb (s : State) (a : BpAccess) : (s.noted a).tlb = s.tlb := rfl
@[simp] theorem noted_msr (s : State) (a : BpAccess) : (s.noted a).msr = s.msr := rfl
@[simp] theorem noted_cplField (s : State) (a : BpAccess) : (s.noted a).cplField = s.cplField := rfl
@[simp] theorem noted_nmiBlocked (s : State) (a : BpAccess) : (s.noted a).nmiBlocked = s.nmiBlocked := rfl
@[simp] theorem noted_activity (s : State) (a : BpAccess) : (s.noted a).activity = s.activity := rfl
@[simp] theorem noted_env (s : State) (a : BpAccess) : (s.noted a).env = s.env := rfl
@[simp] theorem noted_mem (s : State) (a : BpAccess) : (s.noted a).mem = s.mem := rfl
@[simp] theorem noted_part (s : State) (a : BpAccess) : (s.noted a).part = s.part := rfl

/-! ### jumpTo -/

@[simp] theorem jumpTo_gpr (s : State) (e f : Word32) : (s.jumpTo e f).gpr = s.gpr := rfl
@[simp] theorem jumpTo_eip (s : State) (e f : Word32) : (s.jumpTo e f).eip = codeOffset ({ s with eflags := f } : State).codeSize e := rfl
@[simp] theorem jumpTo_eflags (s : State) (e f : Word32) : (s.jumpTo e f).eflags = f := rfl
@[simp] theorem jumpTo_segs (s : State) (e f : Word32) : (s.jumpTo e f).segs = s.segs := rfl
@[simp] theorem jumpTo_gdtr (s : State) (e f : Word32) : (s.jumpTo e f).gdtr = s.gdtr := rfl
@[simp] theorem jumpTo_idtr (s : State) (e f : Word32) : (s.jumpTo e f).idtr = s.idtr := rfl
@[simp] theorem jumpTo_ldtr (s : State) (e f : Word32) : (s.jumpTo e f).ldtr = s.ldtr := rfl
@[simp] theorem jumpTo_tr (s : State) (e f : Word32) : (s.jumpTo e f).tr = s.tr := rfl
@[simp] theorem jumpTo_cr0 (s : State) (e f : Word32) : (s.jumpTo e f).cr0 = s.cr0 := rfl
@[simp] theorem jumpTo_cr2 (s : State) (e f : Word32) : (s.jumpTo e f).cr2 = s.cr2 := rfl
@[simp] theorem jumpTo_cr3 (s : State) (e f : Word32) : (s.jumpTo e f).cr3 = s.cr3 := rfl
@[simp] theorem jumpTo_cr4 (s : State) (e f : Word32) : (s.jumpTo e f).cr4 = s.cr4 := rfl
@[simp] theorem jumpTo_dr0 (s : State) (e f : Word32) : (s.jumpTo e f).dr0 = s.dr0 := rfl
@[simp] theorem jumpTo_dr1 (s : State) (e f : Word32) : (s.jumpTo e f).dr1 = s.dr1 := rfl
@[simp] theorem jumpTo_dr2 (s : State) (e f : Word32) : (s.jumpTo e f).dr2 = s.dr2 := rfl
@[simp] theorem jumpTo_dr3 (s : State) (e f : Word32) : (s.jumpTo e f).dr3 = s.dr3 := rfl
@[simp] theorem jumpTo_dr6 (s : State) (e f : Word32) : (s.jumpTo e f).dr6 = s.dr6 := rfl
@[simp] theorem jumpTo_dr7 (s : State) (e f : Word32) : (s.jumpTo e f).dr7 = s.dr7 := rfl
@[simp] theorem jumpTo_tr6 (s : State) (e f : Word32) : (s.jumpTo e f).tr6 = s.tr6 := rfl
@[simp] theorem jumpTo_tr7 (s : State) (e f : Word32) : (s.jumpTo e f).tr7 = s.tr7 := rfl
@[simp] theorem jumpTo_tlb (s : State) (e f : Word32) : (s.jumpTo e f).tlb = s.tlb := rfl
@[simp] theorem jumpTo_msr (s : State) (e f : Word32) : (s.jumpTo e f).msr = s.msr := rfl
@[simp] theorem jumpTo_cplField (s : State) (e f : Word32) : (s.jumpTo e f).cplField = s.cplField := rfl
@[simp] theorem jumpTo_nmiBlocked (s : State) (e f : Word32) : (s.jumpTo e f).nmiBlocked = s.nmiBlocked := rfl
@[simp] theorem jumpTo_activity (s : State) (e f : Word32) : (s.jumpTo e f).activity = s.activity := rfl
@[simp] theorem jumpTo_pending (s : State) (e f : Word32) : (s.jumpTo e f).pending = s.pending := rfl
@[simp] theorem jumpTo_env (s : State) (e f : Word32) : (s.jumpTo e f).env = s.env := rfl
@[simp] theorem jumpTo_mem (s : State) (e f : Word32) : (s.jumpTo e f).mem = s.mem := rfl
@[simp] theorem jumpTo_part (s : State) (e f : Word32) : (s.jumpTo e f).part = s.part := rfl
@[simp] theorem jumpTo_draws (s : State) (e f : Word32) : (s.jumpTo e f).draws = s.draws := rfl

/-! ### atLevel -/

@[simp] theorem atLevel_gpr (s : State) (n : BitVec 2) : (s.atLevel n).gpr = s.gpr := rfl
@[simp] theorem atLevel_eip (s : State) (n : BitVec 2) : (s.atLevel n).eip = s.eip := rfl
@[simp] theorem atLevel_eflags (s : State) (n : BitVec 2) : (s.atLevel n).eflags = setBit s.eflags 17 false := rfl
@[simp] theorem atLevel_segs (s : State) (n : BitVec 2) : (s.atLevel n).segs = s.segs := rfl
@[simp] theorem atLevel_gdtr (s : State) (n : BitVec 2) : (s.atLevel n).gdtr = s.gdtr := rfl
@[simp] theorem atLevel_idtr (s : State) (n : BitVec 2) : (s.atLevel n).idtr = s.idtr := rfl
@[simp] theorem atLevel_ldtr (s : State) (n : BitVec 2) : (s.atLevel n).ldtr = s.ldtr := rfl
@[simp] theorem atLevel_tr (s : State) (n : BitVec 2) : (s.atLevel n).tr = s.tr := rfl
@[simp] theorem atLevel_cr0 (s : State) (n : BitVec 2) : (s.atLevel n).cr0 = s.cr0 := rfl
@[simp] theorem atLevel_cr2 (s : State) (n : BitVec 2) : (s.atLevel n).cr2 = s.cr2 := rfl
@[simp] theorem atLevel_cr3 (s : State) (n : BitVec 2) : (s.atLevel n).cr3 = s.cr3 := rfl
@[simp] theorem atLevel_cr4 (s : State) (n : BitVec 2) : (s.atLevel n).cr4 = s.cr4 := rfl
@[simp] theorem atLevel_dr0 (s : State) (n : BitVec 2) : (s.atLevel n).dr0 = s.dr0 := rfl
@[simp] theorem atLevel_dr1 (s : State) (n : BitVec 2) : (s.atLevel n).dr1 = s.dr1 := rfl
@[simp] theorem atLevel_dr2 (s : State) (n : BitVec 2) : (s.atLevel n).dr2 = s.dr2 := rfl
@[simp] theorem atLevel_dr3 (s : State) (n : BitVec 2) : (s.atLevel n).dr3 = s.dr3 := rfl
@[simp] theorem atLevel_dr6 (s : State) (n : BitVec 2) : (s.atLevel n).dr6 = s.dr6 := rfl
@[simp] theorem atLevel_dr7 (s : State) (n : BitVec 2) : (s.atLevel n).dr7 = s.dr7 := rfl
@[simp] theorem atLevel_tr6 (s : State) (n : BitVec 2) : (s.atLevel n).tr6 = s.tr6 := rfl
@[simp] theorem atLevel_tr7 (s : State) (n : BitVec 2) : (s.atLevel n).tr7 = s.tr7 := rfl
@[simp] theorem atLevel_tlb (s : State) (n : BitVec 2) : (s.atLevel n).tlb = s.tlb := rfl
@[simp] theorem atLevel_msr (s : State) (n : BitVec 2) : (s.atLevel n).msr = s.msr := rfl
@[simp] theorem atLevel_cplField (s : State) (n : BitVec 2) : (s.atLevel n).cplField = n := rfl
@[simp] theorem atLevel_nmiBlocked (s : State) (n : BitVec 2) : (s.atLevel n).nmiBlocked = s.nmiBlocked := rfl
@[simp] theorem atLevel_activity (s : State) (n : BitVec 2) : (s.atLevel n).activity = s.activity := rfl
@[simp] theorem atLevel_pending (s : State) (n : BitVec 2) : (s.atLevel n).pending = s.pending := rfl
@[simp] theorem atLevel_env (s : State) (n : BitVec 2) : (s.atLevel n).env = s.env := rfl
@[simp] theorem atLevel_mem (s : State) (n : BitVec 2) : (s.atLevel n).mem = s.mem := rfl
@[simp] theorem atLevel_part (s : State) (n : BitVec 2) : (s.atLevel n).part = s.part := rfl
@[simp] theorem atLevel_draws (s : State) (n : BitVec 2) : (s.atLevel n).draws = s.draws := rfl

/-! ### enterHandler -/

@[simp] theorem enterHandler_gpr (s : State) (ev : Event) : (s.enterHandler ev).gpr = s.gpr := by unfold State.enterHandler; split <;> rfl
@[simp] theorem enterHandler_eip (s : State) (ev : Event) : (s.enterHandler ev).eip = s.eip := by unfold State.enterHandler; split <;> rfl
@[simp] theorem enterHandler_eflags (s : State) (ev : Event) : (s.enterHandler ev).eflags = s.eflags := by unfold State.enterHandler; split <;> rfl
@[simp] theorem enterHandler_segs (s : State) (ev : Event) : (s.enterHandler ev).segs = s.segs := by unfold State.enterHandler; split <;> rfl
@[simp] theorem enterHandler_gdtr (s : State) (ev : Event) : (s.enterHandler ev).gdtr = s.gdtr := by unfold State.enterHandler; split <;> rfl
@[simp] theorem enterHandler_idtr (s : State) (ev : Event) : (s.enterHandler ev).idtr = s.idtr := by unfold State.enterHandler; split <;> rfl
@[simp] theorem enterHandler_ldtr (s : State) (ev : Event) : (s.enterHandler ev).ldtr = s.ldtr := by unfold State.enterHandler; split <;> rfl
@[simp] theorem enterHandler_tr (s : State) (ev : Event) : (s.enterHandler ev).tr = s.tr := by unfold State.enterHandler; split <;> rfl
@[simp] theorem enterHandler_cr0 (s : State) (ev : Event) : (s.enterHandler ev).cr0 = s.cr0 := by unfold State.enterHandler; split <;> rfl
@[simp] theorem enterHandler_cr2 (s : State) (ev : Event) : (s.enterHandler ev).cr2 = s.cr2 := by unfold State.enterHandler; split <;> rfl
@[simp] theorem enterHandler_cr3 (s : State) (ev : Event) : (s.enterHandler ev).cr3 = s.cr3 := by unfold State.enterHandler; split <;> rfl
@[simp] theorem enterHandler_cr4 (s : State) (ev : Event) : (s.enterHandler ev).cr4 = s.cr4 := by unfold State.enterHandler; split <;> rfl
@[simp] theorem enterHandler_dr0 (s : State) (ev : Event) : (s.enterHandler ev).dr0 = s.dr0 := by unfold State.enterHandler; split <;> rfl
@[simp] theorem enterHandler_dr1 (s : State) (ev : Event) : (s.enterHandler ev).dr1 = s.dr1 := by unfold State.enterHandler; split <;> rfl
@[simp] theorem enterHandler_dr2 (s : State) (ev : Event) : (s.enterHandler ev).dr2 = s.dr2 := by unfold State.enterHandler; split <;> rfl
@[simp] theorem enterHandler_dr3 (s : State) (ev : Event) : (s.enterHandler ev).dr3 = s.dr3 := by unfold State.enterHandler; split <;> rfl
@[simp] theorem enterHandler_dr6 (s : State) (ev : Event) : (s.enterHandler ev).dr6 = s.dr6 := by unfold State.enterHandler; split <;> rfl
@[simp] theorem enterHandler_tr6 (s : State) (ev : Event) : (s.enterHandler ev).tr6 = s.tr6 := by unfold State.enterHandler; split <;> rfl
@[simp] theorem enterHandler_tr7 (s : State) (ev : Event) : (s.enterHandler ev).tr7 = s.tr7 := by unfold State.enterHandler; split <;> rfl
@[simp] theorem enterHandler_tlb (s : State) (ev : Event) : (s.enterHandler ev).tlb = s.tlb := by unfold State.enterHandler; split <;> rfl
@[simp] theorem enterHandler_msr (s : State) (ev : Event) : (s.enterHandler ev).msr = s.msr := by unfold State.enterHandler; split <;> rfl
@[simp] theorem enterHandler_cplField (s : State) (ev : Event) : (s.enterHandler ev).cplField = s.cplField := by unfold State.enterHandler; split <;> rfl
@[simp] theorem enterHandler_nmiBlocked (s : State) (ev : Event) : (s.enterHandler ev).nmiBlocked = s.nmiBlocked := by unfold State.enterHandler; split <;> rfl
@[simp] theorem enterHandler_activity (s : State) (ev : Event) : (s.enterHandler ev).activity = s.activity := by unfold State.enterHandler; split <;> rfl
@[simp] theorem enterHandler_pending (s : State) (ev : Event) : (s.enterHandler ev).pending = s.pending := by unfold State.enterHandler; split <;> rfl
@[simp] theorem enterHandler_env (s : State) (ev : Event) : (s.enterHandler ev).env = s.env := by unfold State.enterHandler; split <;> rfl
@[simp] theorem enterHandler_mem (s : State) (ev : Event) : (s.enterHandler ev).mem = s.mem := by unfold State.enterHandler; split <;> rfl
@[simp] theorem enterHandler_part (s : State) (ev : Event) : (s.enterHandler ev).part = s.part := by unfold State.enterHandler; split <;> rfl
@[simp] theorem enterHandler_draws (s : State) (ev : Event) : (s.enterHandler ev).draws = s.draws := by unfold State.enterHandler; split <;> rfl

/-! ### raised -/

@[simp] theorem raised_gpr (s : State) (e : Exn) : (s.raised e).gpr = s.gpr := by cases e <;> rfl
@[simp] theorem raised_eip (s : State) (e : Exn) : (s.raised e).eip = s.eip := by cases e <;> rfl
@[simp] theorem raised_eflags (s : State) (e : Exn) : (s.raised e).eflags = s.eflags := by cases e <;> rfl
@[simp] theorem raised_segs (s : State) (e : Exn) : (s.raised e).segs = s.segs := by cases e <;> rfl
@[simp] theorem raised_gdtr (s : State) (e : Exn) : (s.raised e).gdtr = s.gdtr := by cases e <;> rfl
@[simp] theorem raised_idtr (s : State) (e : Exn) : (s.raised e).idtr = s.idtr := by cases e <;> rfl
@[simp] theorem raised_ldtr (s : State) (e : Exn) : (s.raised e).ldtr = s.ldtr := by cases e <;> rfl
@[simp] theorem raised_tr (s : State) (e : Exn) : (s.raised e).tr = s.tr := by cases e <;> rfl
@[simp] theorem raised_cr0 (s : State) (e : Exn) : (s.raised e).cr0 = s.cr0 := by cases e <;> rfl
@[simp] theorem raised_cr3 (s : State) (e : Exn) : (s.raised e).cr3 = s.cr3 := by cases e <;> rfl
@[simp] theorem raised_cr4 (s : State) (e : Exn) : (s.raised e).cr4 = s.cr4 := by cases e <;> rfl
@[simp] theorem raised_dr0 (s : State) (e : Exn) : (s.raised e).dr0 = s.dr0 := by cases e <;> rfl
@[simp] theorem raised_dr1 (s : State) (e : Exn) : (s.raised e).dr1 = s.dr1 := by cases e <;> rfl
@[simp] theorem raised_dr2 (s : State) (e : Exn) : (s.raised e).dr2 = s.dr2 := by cases e <;> rfl
@[simp] theorem raised_dr3 (s : State) (e : Exn) : (s.raised e).dr3 = s.dr3 := by cases e <;> rfl
@[simp] theorem raised_dr7 (s : State) (e : Exn) : (s.raised e).dr7 = s.dr7 := by cases e <;> rfl
@[simp] theorem raised_tr6 (s : State) (e : Exn) : (s.raised e).tr6 = s.tr6 := by cases e <;> rfl
@[simp] theorem raised_tr7 (s : State) (e : Exn) : (s.raised e).tr7 = s.tr7 := by cases e <;> rfl
@[simp] theorem raised_tlb (s : State) (e : Exn) : (s.raised e).tlb = s.tlb := by cases e <;> rfl
@[simp] theorem raised_msr (s : State) (e : Exn) : (s.raised e).msr = s.msr := by cases e <;> rfl
@[simp] theorem raised_cplField (s : State) (e : Exn) : (s.raised e).cplField = s.cplField := by cases e <;> rfl
@[simp] theorem raised_nmiBlocked (s : State) (e : Exn) : (s.raised e).nmiBlocked = s.nmiBlocked := by cases e <;> rfl
@[simp] theorem raised_activity (s : State) (e : Exn) : (s.raised e).activity = s.activity := by cases e <;> rfl
@[simp] theorem raised_pending (s : State) (e : Exn) : (s.raised e).pending = s.pending := by cases e <;> rfl
@[simp] theorem raised_env (s : State) (e : Exn) : (s.raised e).env = s.env := by cases e <;> rfl
@[simp] theorem raised_mem (s : State) (e : Exn) : (s.raised e).mem = s.mem := by cases e <;> rfl
@[simp] theorem raised_part (s : State) (e : Exn) : (s.raised e).part = s.part := by cases e <;> rfl

/-! ### advance -/

@[simp] theorem advance_gpr (s t : State) (i : Instr) : (s.advance t i).gpr = t.gpr := rfl
@[simp] theorem advance_eip (s t : State) (i : Instr) : (s.advance t i).eip = codeOffset ({ t with eflags := clearRf t.eflags } : State).codeSize (s.eipPlus i.length) := rfl
@[simp] theorem advance_eflags (s t : State) (i : Instr) : (s.advance t i).eflags = clearRf t.eflags := rfl
@[simp] theorem advance_segs (s t : State) (i : Instr) : (s.advance t i).segs = t.segs := rfl
@[simp] theorem advance_gdtr (s t : State) (i : Instr) : (s.advance t i).gdtr = t.gdtr := rfl
@[simp] theorem advance_idtr (s t : State) (i : Instr) : (s.advance t i).idtr = t.idtr := rfl
@[simp] theorem advance_ldtr (s t : State) (i : Instr) : (s.advance t i).ldtr = t.ldtr := rfl
@[simp] theorem advance_tr (s t : State) (i : Instr) : (s.advance t i).tr = t.tr := rfl
@[simp] theorem advance_cr0 (s t : State) (i : Instr) : (s.advance t i).cr0 = t.cr0 := rfl
@[simp] theorem advance_cr2 (s t : State) (i : Instr) : (s.advance t i).cr2 = t.cr2 := rfl
@[simp] theorem advance_cr3 (s t : State) (i : Instr) : (s.advance t i).cr3 = t.cr3 := rfl
@[simp] theorem advance_cr4 (s t : State) (i : Instr) : (s.advance t i).cr4 = t.cr4 := rfl
@[simp] theorem advance_dr0 (s t : State) (i : Instr) : (s.advance t i).dr0 = t.dr0 := rfl
@[simp] theorem advance_dr1 (s t : State) (i : Instr) : (s.advance t i).dr1 = t.dr1 := rfl
@[simp] theorem advance_dr2 (s t : State) (i : Instr) : (s.advance t i).dr2 = t.dr2 := rfl
@[simp] theorem advance_dr3 (s t : State) (i : Instr) : (s.advance t i).dr3 = t.dr3 := rfl
@[simp] theorem advance_dr6 (s t : State) (i : Instr) : (s.advance t i).dr6 = t.dr6 := rfl
@[simp] theorem advance_dr7 (s t : State) (i : Instr) : (s.advance t i).dr7 = t.dr7 := rfl
@[simp] theorem advance_tr6 (s t : State) (i : Instr) : (s.advance t i).tr6 = t.tr6 := rfl
@[simp] theorem advance_tr7 (s t : State) (i : Instr) : (s.advance t i).tr7 = t.tr7 := rfl
@[simp] theorem advance_tlb (s t : State) (i : Instr) : (s.advance t i).tlb = t.tlb := rfl
@[simp] theorem advance_msr (s t : State) (i : Instr) : (s.advance t i).msr = t.msr := rfl
@[simp] theorem advance_cplField (s t : State) (i : Instr) : (s.advance t i).cplField = t.cplField := rfl
@[simp] theorem advance_nmiBlocked (s t : State) (i : Instr) : (s.advance t i).nmiBlocked = t.nmiBlocked := rfl
@[simp] theorem advance_activity (s t : State) (i : Instr) : (s.advance t i).activity = t.activity := rfl
@[simp] theorem advance_pending (s t : State) (i : Instr) : (s.advance t i).pending = { t.pending with singleStep := s.tf } := rfl
@[simp] theorem advance_env (s t : State) (i : Instr) : (s.advance t i).env = t.env := rfl
@[simp] theorem advance_mem (s t : State) (i : Instr) : (s.advance t i).mem = t.mem := rfl
@[simp] theorem advance_part (s t : State) (i : Instr) : (s.advance t i).part = t.part := rfl
@[simp] theorem advance_draws (s t : State) (i : Instr) : (s.advance t i).draws = t.draws := rfl

/-! ### tick -/

@[simp] theorem tick_gpr (s : State) : (s.tick).gpr = s.gpr := rfl
@[simp] theorem tick_eip (s : State) : (s.tick).eip = s.eip := rfl
@[simp] theorem tick_eflags (s : State) : (s.tick).eflags = s.eflags := rfl
@[simp] theorem tick_segs (s : State) : (s.tick).segs = s.segs := rfl
@[simp] theorem tick_gdtr (s : State) : (s.tick).gdtr = s.gdtr := rfl
@[simp] theorem tick_idtr (s : State) : (s.tick).idtr = s.idtr := rfl
@[simp] theorem tick_ldtr (s : State) : (s.tick).ldtr = s.ldtr := rfl
@[simp] theorem tick_tr (s : State) : (s.tick).tr = s.tr := rfl
@[simp] theorem tick_cr0 (s : State) : (s.tick).cr0 = s.cr0 := rfl
@[simp] theorem tick_cr2 (s : State) : (s.tick).cr2 = s.cr2 := rfl
@[simp] theorem tick_cr3 (s : State) : (s.tick).cr3 = s.cr3 := rfl
@[simp] theorem tick_cr4 (s : State) : (s.tick).cr4 = s.cr4 := rfl
@[simp] theorem tick_dr0 (s : State) : (s.tick).dr0 = s.dr0 := rfl
@[simp] theorem tick_dr1 (s : State) : (s.tick).dr1 = s.dr1 := rfl
@[simp] theorem tick_dr2 (s : State) : (s.tick).dr2 = s.dr2 := rfl
@[simp] theorem tick_dr3 (s : State) : (s.tick).dr3 = s.dr3 := rfl
@[simp] theorem tick_dr6 (s : State) : (s.tick).dr6 = s.dr6 := rfl
@[simp] theorem tick_dr7 (s : State) : (s.tick).dr7 = s.dr7 := rfl
@[simp] theorem tick_tr6 (s : State) : (s.tick).tr6 = s.tr6 := rfl
@[simp] theorem tick_tr7 (s : State) : (s.tick).tr7 = s.tr7 := rfl
@[simp] theorem tick_tlb (s : State) : (s.tick).tlb = s.tlb := rfl
@[simp] theorem tick_cplField (s : State) : (s.tick).cplField = s.cplField := rfl
@[simp] theorem tick_nmiBlocked (s : State) : (s.tick).nmiBlocked = s.nmiBlocked := rfl
@[simp] theorem tick_activity (s : State) : (s.tick).activity = s.activity := rfl
@[simp] theorem tick_pending (s : State) : (s.tick).pending = s.pending := rfl
@[simp] theorem tick_env (s : State) : (s.tick).env = s.env := rfl
@[simp] theorem tick_mem (s : State) : (s.tick).mem = s.mem := rfl
@[simp] theorem tick_part (s : State) : (s.tick).part = s.part := rfl
@[simp] theorem tick_draws (s : State) : (s.tick).draws = s.draws + 1 := rfl

/-! ### setEip -/

@[simp] theorem setEip_gpr (s : State) (v : Word32) : (s.setEip v).gpr = s.gpr := rfl
@[simp] theorem setEip_eip (s : State) (v : Word32) : (s.setEip v).eip = codeOffset s.codeSize v := rfl
@[simp] theorem setEip_eflags (s : State) (v : Word32) : (s.setEip v).eflags = s.eflags := rfl
@[simp] theorem setEip_segs (s : State) (v : Word32) : (s.setEip v).segs = s.segs := rfl
@[simp] theorem setEip_gdtr (s : State) (v : Word32) : (s.setEip v).gdtr = s.gdtr := rfl
@[simp] theorem setEip_idtr (s : State) (v : Word32) : (s.setEip v).idtr = s.idtr := rfl
@[simp] theorem setEip_ldtr (s : State) (v : Word32) : (s.setEip v).ldtr = s.ldtr := rfl
@[simp] theorem setEip_tr (s : State) (v : Word32) : (s.setEip v).tr = s.tr := rfl
@[simp] theorem setEip_cr0 (s : State) (v : Word32) : (s.setEip v).cr0 = s.cr0 := rfl
@[simp] theorem setEip_cr2 (s : State) (v : Word32) : (s.setEip v).cr2 = s.cr2 := rfl
@[simp] theorem setEip_cr3 (s : State) (v : Word32) : (s.setEip v).cr3 = s.cr3 := rfl
@[simp] theorem setEip_cr4 (s : State) (v : Word32) : (s.setEip v).cr4 = s.cr4 := rfl
@[simp] theorem setEip_dr0 (s : State) (v : Word32) : (s.setEip v).dr0 = s.dr0 := rfl
@[simp] theorem setEip_dr1 (s : State) (v : Word32) : (s.setEip v).dr1 = s.dr1 := rfl
@[simp] theorem setEip_dr2 (s : State) (v : Word32) : (s.setEip v).dr2 = s.dr2 := rfl
@[simp] theorem setEip_dr3 (s : State) (v : Word32) : (s.setEip v).dr3 = s.dr3 := rfl
@[simp] theorem setEip_dr6 (s : State) (v : Word32) : (s.setEip v).dr6 = s.dr6 := rfl
@[simp] theorem setEip_dr7 (s : State) (v : Word32) : (s.setEip v).dr7 = s.dr7 := rfl
@[simp] theorem setEip_tr6 (s : State) (v : Word32) : (s.setEip v).tr6 = s.tr6 := rfl
@[simp] theorem setEip_tr7 (s : State) (v : Word32) : (s.setEip v).tr7 = s.tr7 := rfl
@[simp] theorem setEip_tlb (s : State) (v : Word32) : (s.setEip v).tlb = s.tlb := rfl
@[simp] theorem setEip_msr (s : State) (v : Word32) : (s.setEip v).msr = s.msr := rfl
@[simp] theorem setEip_cplField (s : State) (v : Word32) : (s.setEip v).cplField = s.cplField := rfl
@[simp] theorem setEip_nmiBlocked (s : State) (v : Word32) : (s.setEip v).nmiBlocked = s.nmiBlocked := rfl
@[simp] theorem setEip_activity (s : State) (v : Word32) : (s.setEip v).activity = s.activity := rfl
@[simp] theorem setEip_pending (s : State) (v : Word32) : (s.setEip v).pending = s.pending := rfl
@[simp] theorem setEip_env (s : State) (v : Word32) : (s.setEip v).env = s.env := rfl
@[simp] theorem setEip_mem (s : State) (v : Word32) : (s.setEip v).mem = s.mem := rfl
@[simp] theorem setEip_part (s : State) (v : Word32) : (s.setEip v).part = s.part := rfl
@[simp] theorem setEip_draws (s : State) (v : Word32) : (s.setEip v).draws = s.draws := rfl

/-! ### stepped -/

@[simp] theorem stepped_gpr (s : State) (b : Bool) : (s.stepped b).gpr = s.gpr := rfl
@[simp] theorem stepped_eip (s : State) (b : Bool) : (s.stepped b).eip = s.eip := rfl
@[simp] theorem stepped_eflags (s : State) (b : Bool) : (s.stepped b).eflags = s.eflags := rfl
@[simp] theorem stepped_segs (s : State) (b : Bool) : (s.stepped b).segs = s.segs := rfl
@[simp] theorem stepped_gdtr (s : State) (b : Bool) : (s.stepped b).gdtr = s.gdtr := rfl
@[simp] theorem stepped_idtr (s : State) (b : Bool) : (s.stepped b).idtr = s.idtr := rfl
@[simp] theorem stepped_ldtr (s : State) (b : Bool) : (s.stepped b).ldtr = s.ldtr := rfl
@[simp] theorem stepped_tr (s : State) (b : Bool) : (s.stepped b).tr = s.tr := rfl
@[simp] theorem stepped_cr0 (s : State) (b : Bool) : (s.stepped b).cr0 = s.cr0 := rfl
@[simp] theorem stepped_cr2 (s : State) (b : Bool) : (s.stepped b).cr2 = s.cr2 := rfl
@[simp] theorem stepped_cr3 (s : State) (b : Bool) : (s.stepped b).cr3 = s.cr3 := rfl
@[simp] theorem stepped_cr4 (s : State) (b : Bool) : (s.stepped b).cr4 = s.cr4 := rfl
@[simp] theorem stepped_dr0 (s : State) (b : Bool) : (s.stepped b).dr0 = s.dr0 := rfl
@[simp] theorem stepped_dr1 (s : State) (b : Bool) : (s.stepped b).dr1 = s.dr1 := rfl
@[simp] theorem stepped_dr2 (s : State) (b : Bool) : (s.stepped b).dr2 = s.dr2 := rfl
@[simp] theorem stepped_dr3 (s : State) (b : Bool) : (s.stepped b).dr3 = s.dr3 := rfl
@[simp] theorem stepped_dr6 (s : State) (b : Bool) : (s.stepped b).dr6 = s.dr6 := rfl
@[simp] theorem stepped_dr7 (s : State) (b : Bool) : (s.stepped b).dr7 = s.dr7 := rfl
@[simp] theorem stepped_tr6 (s : State) (b : Bool) : (s.stepped b).tr6 = s.tr6 := rfl
@[simp] theorem stepped_tr7 (s : State) (b : Bool) : (s.stepped b).tr7 = s.tr7 := rfl
@[simp] theorem stepped_tlb (s : State) (b : Bool) : (s.stepped b).tlb = s.tlb := rfl
@[simp] theorem stepped_msr (s : State) (b : Bool) : (s.stepped b).msr = s.msr := rfl
@[simp] theorem stepped_cplField (s : State) (b : Bool) : (s.stepped b).cplField = s.cplField := rfl
@[simp] theorem stepped_nmiBlocked (s : State) (b : Bool) : (s.stepped b).nmiBlocked = s.nmiBlocked := rfl
@[simp] theorem stepped_activity (s : State) (b : Bool) : (s.stepped b).activity = s.activity := rfl
@[simp] theorem stepped_pending (s : State) (b : Bool) : (s.stepped b).pending = { s.pending with singleStep := b } := rfl
@[simp] theorem stepped_env (s : State) (b : Bool) : (s.stepped b).env = s.env := rfl
@[simp] theorem stepped_mem (s : State) (b : Bool) : (s.stepped b).mem = s.mem := rfl
@[simp] theorem stepped_part (s : State) (b : Bool) : (s.stepped b).part = s.part := rfl
@[simp] theorem stepped_draws (s : State) (b : Bool) : (s.stepped b).draws = s.draws := rfl

/-! ### afterInstrHits -/

@[simp] theorem afterInstrHits_gpr (s : State) : (s.afterInstrHits).gpr = s.gpr := rfl
@[simp] theorem afterInstrHits_eip (s : State) : (s.afterInstrHits).eip = s.eip := rfl
@[simp] theorem afterInstrHits_eflags (s : State) : (s.afterInstrHits).eflags = s.eflags := rfl
@[simp] theorem afterInstrHits_segs (s : State) : (s.afterInstrHits).segs = s.segs := rfl
@[simp] theorem afterInstrHits_gdtr (s : State) : (s.afterInstrHits).gdtr = s.gdtr := rfl
@[simp] theorem afterInstrHits_idtr (s : State) : (s.afterInstrHits).idtr = s.idtr := rfl
@[simp] theorem afterInstrHits_ldtr (s : State) : (s.afterInstrHits).ldtr = s.ldtr := rfl
@[simp] theorem afterInstrHits_tr (s : State) : (s.afterInstrHits).tr = s.tr := rfl
@[simp] theorem afterInstrHits_cr0 (s : State) : (s.afterInstrHits).cr0 = s.cr0 := rfl
@[simp] theorem afterInstrHits_cr2 (s : State) : (s.afterInstrHits).cr2 = s.cr2 := rfl
@[simp] theorem afterInstrHits_cr3 (s : State) : (s.afterInstrHits).cr3 = s.cr3 := rfl
@[simp] theorem afterInstrHits_cr4 (s : State) : (s.afterInstrHits).cr4 = s.cr4 := rfl
@[simp] theorem afterInstrHits_dr0 (s : State) : (s.afterInstrHits).dr0 = s.dr0 := rfl
@[simp] theorem afterInstrHits_dr1 (s : State) : (s.afterInstrHits).dr1 = s.dr1 := rfl
@[simp] theorem afterInstrHits_dr2 (s : State) : (s.afterInstrHits).dr2 = s.dr2 := rfl
@[simp] theorem afterInstrHits_dr3 (s : State) : (s.afterInstrHits).dr3 = s.dr3 := rfl
@[simp] theorem afterInstrHits_dr6 (s : State) : (s.afterInstrHits).dr6 = s.dr6 := rfl
@[simp] theorem afterInstrHits_dr7 (s : State) : (s.afterInstrHits).dr7 = s.dr7 := rfl
@[simp] theorem afterInstrHits_tr6 (s : State) : (s.afterInstrHits).tr6 = s.tr6 := rfl
@[simp] theorem afterInstrHits_tr7 (s : State) : (s.afterInstrHits).tr7 = s.tr7 := rfl
@[simp] theorem afterInstrHits_tlb (s : State) : (s.afterInstrHits).tlb = s.tlb := rfl
@[simp] theorem afterInstrHits_msr (s : State) : (s.afterInstrHits).msr = s.msr := rfl
@[simp] theorem afterInstrHits_cplField (s : State) : (s.afterInstrHits).cplField = s.cplField := rfl
@[simp] theorem afterInstrHits_nmiBlocked (s : State) : (s.afterInstrHits).nmiBlocked = s.nmiBlocked := rfl
@[simp] theorem afterInstrHits_activity (s : State) : (s.afterInstrHits).activity = s.activity := rfl
@[simp] theorem afterInstrHits_pending (s : State) : (s.afterInstrHits).pending = { s.pending with disabled := s.pending.disabled ||| s.bpUnarmeds (.instr s.fetchAddr) ||| s.instrSuppressed } := rfl
@[simp] theorem afterInstrHits_env (s : State) : (s.afterInstrHits).env = s.env := rfl
@[simp] theorem afterInstrHits_mem (s : State) : (s.afterInstrHits).mem = s.mem := rfl
@[simp] theorem afterInstrHits_part (s : State) : (s.afterInstrHits).part = s.part := rfl
@[simp] theorem afterInstrHits_draws (s : State) : (s.afterInstrHits).draws = if s.bpAnyOpen (.instr s.fetchAddr) then s.draws + 1 else s.draws := rfl

/-! ### What the code size and EIP depend on -/

theorem codeSize_of_eq {s t : State} (h0 : t.cr0 = s.cr0) (hf : t.vm = s.vm) (hc : t.segs.cs = s.segs.cs) :
    t.codeSize = s.codeSize := by
  unfold State.codeSize State.prot State.pe
  rw [h0, hf, hc]

/-- An offset that the code size holds stays as it is. -/
@[simp] theorem codeOffset_idem (z : OpSize) (v : Word32) : codeOffset z (codeOffset z v) = codeOffset z v := by
  cases z
  · simp [codeOffset, zext32, low16]
  · rfl

@[simp] theorem codeOffset_s32 (v : Word32) : codeOffset .s32 v = v := rfl
@[simp] theorem codeOffset_s16 (v : Word32) : codeOffset .s16 v = zext32 (low16 v) := rfl

theorem clearRf_vm (s : State) : bit (clearRf s.eflags) 17 = s.vm := by
  simp [clearRf, setBit, bit, State.vm]

/-- An instruction that leaves the mode and CS alone ends as `eipPlus` says. -/
theorem advance_eip_of_eq {s t : State} (i : Instr) (h0 : t.cr0 = s.cr0) (hf : t.vm = s.vm) (hc : t.segs.cs = s.segs.cs) :
    (s.advance t i).eip = s.eipPlus i.length := by
  have hv : State.vm { t with eflags := clearRf t.eflags } = s.vm := (clearRf_vm t).trans hf
  have hz : State.codeSize { t with eflags := clearRf t.eflags } = s.codeSize := codeSize_of_eq h0 hv hc
  rw [advance_eip, hz]
  exact codeOffset_idem _ _

end Sys2Proof.Machine
end

