-- ==== Sys2Proof/Laws/Access.lean ====
section
/-! SUPPORT. Memory accesses with paging off: what each answers, once. -/

namespace Sys2Proof.Machine

theorem translate_flat {s : State} (h : s.paging = false) (acc : Access) (lin : Word32) :
    translate acc lin s = .ok (lin, s) := by
  unfold translate
  rw [exec_bind_of_ok (exec_get s)]
  simp [h]

theorem nextByte_flat {s : State} (h : s.paging = false) (acc : Access) {prev : Option Word32} {lin : Word32}
    (hp : ∀ p, prev = some p → p + 1 = lin) : nextByte acc prev lin s = .ok (lin, s) := by
  cases prev with
  | none => exact translate_flat h acc lin
  | some p =>
    unfold nextByte
    dsimp only
    split
    · exact translate_flat h acc lin
    · rw [exec_pure, hp p rfl]

theorem translateFrom_flat {s : State} (h : s.paging = false) (acc : Access) (n : Nat) {prev : Option Word32} {lin : Word32}
    (hp : ∀ p, prev = some p → p + 1 = lin) : translateFrom acc n prev lin s = .ok (addrsFrom lin n, s) := by
  induction n generalizing prev lin with
  | zero => rfl
  | succ n ih =>
    show (nextByte acc prev lin >>= fun pa => translateFrom acc n (some pa) (lin + 1) >>= fun pas => pure (pa :: pas)) s = _
    rw [exec_bind_of_ok (nextByte_flat h acc hp), exec_bind_of_ok (ih (by rintro p hq; cases hq; rfl))]
    rfl

theorem translateRange_flat {s : State} (h : s.paging = false) (acc : Access) {lin : Word32} {n : Nat}
    (hd : s.deviceAt (addrsFrom lin n) = false) : translateRange acc lin n s = .ok (addrsFrom lin n, s) := by
  unfold translateRange
  rw [exec_bind_of_ok (translateFrom_flat h acc n (prev := none) (by rintro p hq; cases hq)), exec_bind_of_ok (exec_get s), hd]
  rfl

/-- An access to a device is refused. -/
theorem translateRange_device {s : State} (h : s.paging = false) (acc : Access) {lin : Word32} {n : Nat}
    (hd : s.deviceAt (addrsFrom lin n) = true) : translateRange acc lin n s = .error (.refused .deviceAccess) := by
  unfold translateRange
  rw [exec_bind_of_ok (translateFrom_flat h acc n (prev := none) (by rintro p hq; cases hq)), exec_bind_of_ok (exec_get s), hd]
  rfl

theorem memRead_flat {s : State} (h : s.paging = false) (acc : Access) {lin : Word32} {n : Nat}
    (hd : s.deviceAt (addrsFrom lin n) = false) :
    memRead acc lin n s = .ok (littleEndian (s.bytesAt (addrsFrom lin n)), s) := by
  unfold memRead
  rw [exec_bind_of_ok (translateRange_flat h acc hd)]
  rfl

theorem memWrite_flat {s : State} (h : s.paging = false) (acc : Access) {lin : Word32} {n : Nat} (v : Nat)
    (hd : s.deviceAt (addrsFrom lin n) = false) :
    memWrite acc lin n v s = .ok ((), s.storeBytes (addrsFrom lin n) (toBytes n v)) := by
  unfold memWrite
  rw [exec_bind_of_ok (translateRange_flat h acc hd)]
  rfl

theorem sysRead_flat {s : State} (h : s.paging = false) {lin : Word32} {n : Nat}
    (hd : s.deviceAt (addrsFrom lin n) = false) :
    sysRead lin n s = .ok (littleEndian (s.bytesAt (addrsFrom lin n)), s) := memRead_flat h _ hd

theorem sysWrite_flat {s : State} (h : s.paging = false) {lin : Word32} {n : Nat} (v : Nat)
    (hd : s.deviceAt (addrsFrom lin n) = false) :
    sysWrite lin n v s = .ok ((), s.storeBytes (addrsFrom lin n) (toBytes n v)) := memWrite_flat h _ v hd

theorem operandBytes_flat {s : State} (h : s.paging = false) {r : SegReg} {write : Bool} {off : Word32} {n : Nat}
    (ha : s.segAllows r write off n = true) (hd : s.deviceAt (addrsFrom (s.linear r off) n) = false) :
    operandBytes r write off n s = .ok (addrsFrom (s.linear r off) n, s.noted (.data write (s.linear r off) n)) := by
  unfold operandBytes
  rw [exec_bind_of_ok (exec_get s)]
  simp only [ha, Bool.not_true]
  rw [exec_bind_of_ok (exec_raiseIf_false _ s), exec_bind_of_ok (translateRange_flat h _ hd)]
  rfl

theorem checkAlignment_ok {s : State} {r : SegReg} {off : Word32} {n : Nat} (h : s.misaligned (s.linear r off) n = false) :
    checkAlignment r off n s = .ok ((), s) := by
  unfold checkAlignment
  rw [exec_bind_of_ok (exec_get s), h]
  rfl

/-- Noting a breakpoint condition changes neither addresses nor modes. -/
theorem noted_linear (s : State) (a : BpAccess) (r : SegReg) (off : Word32) : (s.noted a).linear r off = s.linear r off := rfl
theorem noted_misaligned (s : State) (a : BpAccess) (lin : Word32) (n : Nat) :
    (s.noted a).misaligned lin n = s.misaligned lin n := rfl
theorem noted_paging (s : State) (a : BpAccess) : (s.noted a).paging = s.paging := rfl

theorem lmemRead_flat {s : State} (h : s.paging = false) {r : SegReg} {off : Word32} {n : Nat}
    (ha : s.segAllows r false off n = true) (hd : s.deviceAt (addrsFrom (s.linear r off) n) = false) (hm : s.misaligned (s.linear r off) n = false) :
    lmemRead r off n s = .ok (littleEndian (s.bytesAt (addrsFrom (s.linear r off) n)),
      s.noted (.data false (s.linear r off) n)) := by
  unfold lmemRead
  rw [exec_bind_of_ok (operandBytes_flat h ha hd), exec_bind_of_ok (checkAlignment_ok (by exact hm))]
  rfl

theorem lmemWrite_flat {s : State} (h : s.paging = false) {r : SegReg} {off : Word32} {n : Nat} (v : Nat)
    (ha : s.segAllows r true off n = true) (hd : s.deviceAt (addrsFrom (s.linear r off) n) = false) (hm : s.misaligned (s.linear r off) n = false) :
    lmemWrite r off n v s = .ok ((), (s.noted (.data true (s.linear r off) n)).storeBytes
      (addrsFrom (s.linear r off) n) (toBytes n v)) := by
  unfold lmemWrite
  rw [exec_bind_of_ok (operandBytes_flat h ha hd), exec_bind_of_ok (checkAlignment_ok (by exact hm))]
  rfl

end Sys2Proof.Machine
end

