-- ==== Sys2Proof/Laws/Encode.lean ====
section
/-! SUPPORT. The bytes of an encoding: how many there are, and that numbers and fields survive them. -/

namespace Sys2Proof

@[simp] theorem encodeRm_length (g : BitVec 3) (o : RmOp) : (encodeRm g o).length = o.size := by
  cases o with
  | reg r => rfl
  | mem16 a =>
    cases a with
    | direct d => rfl
    | base b d => cases d <;> rfl
  | mem32 a =>
    cases a with
    | direct d => rfl
    | base b d => cases d <;> rfl
    | sib s x b d => cases d <;> rfl
    | sibNoBase s x d => rfl

@[simp] theorem encodeFar_length (t : FarPtr) : (encodeFar t).length = t.size := by
  cases t <;> rfl

@[simp] theorem Gpr.ofNum_num (r : Gpr) : Gpr.ofNum r.num = r := by cases r <;> rfl
@[simp] theorem Base16.ofNum_num (b : Base16) : Base16.ofNum b.num = b := by cases b <;> rfl

theorem Gpr.num_ofNum (n : BitVec 3) : (Gpr.ofNum n).num = n := by revert n; decide
theorem Base16.num_ofNum (n : BitVec 3) : (Base16.ofNum n).num = n := by revert n; decide

@[simp] theorem Prefix.ofByte_byte (p : Prefix) : Prefix.ofByte p.byte = some p := by
  cases p with
  | seg r => cases r <;> rfl
  | _ => rfl

theorem Prefix.byte_ofByte {b : Byte} {p : Prefix} (h : Prefix.ofByte b = some p) : p.byte = b := by
  revert p b
  decide +kernel

end Sys2Proof
end

