-- ==== Sys2Proof/Laws/Entry.lean ====
section
/-! SUPPORT. What the stack, the task switch, the delivery of an event and the return from one can do to the state: whatever
relation their primitive updates keep, they keep. -/

namespace Sys2Proof.Machine

/-- A relation that holds over the updates of the entry to a handler: the stack pointer, the segment registers, the level,
the jump, DR7.GD (60 R354, R355). -/
structure EntryClosed (R : State → State → Prop) : Prop extends MmuClosed R where
  esp : ∀ s v, R s (s.setReg .esp v)
  segs : ∀ s g, R s { s with segs := g }
  level : ∀ s n, R s (s.atLevel n)
  jump : ∀ s eip c, R s (s.jumpTo eip (entryFlags s.eflags c))
  jumpReal : ∀ s eip, R s (s.jumpTo eip (realEntryFlags s.eflags))
  guard : ∀ s, R s { s with dr7 := setBit s.dr7 13 false }

/-- And over those of a task switch, which happens only with CR0.PE = 1 (20_memory.md R159). -/
structure TaskClosed (R : State → State → Prop) : Prop extends EntryClosed R where
  ldtr : ∀ s g, R s { s with ldtr := g }
  cpl : ∀ s n, R s { s with cplField := n }
  task : ∀ s g kind c, s.pe = true → R s (({ s with tr := g } : State).enterTask kind c)
  setEip : ∀ s : State, R s (s.setEip s.eip)

/-- And over those of IRET (44 R302). `s` is the state when the flags were masked. -/
structure ReturnClosed (R : State → State → Prop) : Prop extends TaskClosed R, OperandClosed R where
  iret : ∀ s t eip z fl, R s t → R s (t.jumpTo eip (s.iretEflags z fl))
  iretVirtual : ∀ s t eip f, R s t → R s (t.jumpTo eip (s.virtualIretEflags f))
  unblock : ∀ s, R s { s with nmiBlocked := false }

variable {R : State → State → Prop}

theorem EntryClosed.setSeg (h : EntryClosed R) (s : State) (r : SegReg) (v : SegState) : R s (s.setSeg r v) := h.segs s _

theorem EntryClosed.loadReal (h : EntryClosed R) (s : State) (r : SegReg) (sel : Word16) : R s (s.loadReal r sel) := h.segs s _

theorem EntryClosed.setStackTop (h : EntryClosed R) (s : State) (off : Word32) : R s (s.setStackTop off) := by
  unfold State.setStackTop
  split
  · exact h.esp s _
  · exact h.esp s _

theorem keeps_loadSeg (h : EntryClosed R) (r : SegReg) (sel : Word16) (c : SegCache) : Keeps R (loadSeg r sel c) := by
  unfold loadSeg
  refine keeps_bind h.frame (keeps_onlyIf h.frame _ (keeps_updateType h.toMmuClosed sel 0 true)) fun _ => ?_
  exact keeps_modify fun s => h.setSeg s r _

/-! ### The stack -/

theorem keeps_push (h : EntryClosed R) (ho : OperandClosed R) (z : OpSize) (v : Word32) : Keeps R (push z v) := by
  refine keeps_bind h.frame (keeps_get h.frame) fun s => ?_
  refine keeps_bind h.frame (keeps_lmemWrite ho _ _ _ _) fun _ => ?_
  exact keeps_modify fun t => h.setStackTop t _

theorem keeps_pop (h : EntryClosed R) (ho : OperandClosed R) (z : OpSize) : Keeps R (pop z) := by
  refine keeps_bind h.frame (keeps_get h.frame) fun s => ?_
  refine keeps_bind h.frame (keeps_lmemRead ho _ _ _) fun v => ?_
  refine keeps_bind h.frame (keeps_modify fun t => h.setStackTop t _) fun _ => ?_
  exact keeps_pure h.frame _

theorem keeps_pushFrame (h : EntryClosed R) (z : OpSize) (v : Word32) : Keeps R (pushFrame z v) := by
  refine keeps_bind h.frame (keeps_get h.frame) fun s => ?_
  refine keeps_bind h.frame (keeps_raiseIf h.frame _ _) fun _ => ?_
  refine keeps_bind h.frame (keeps_memWrite h.toMmuClosed _ _ _ _) fun _ => ?_
  exact keeps_modify fun t => h.setStackTop t _

theorem keeps_pushCode (h : EntryClosed R) (z : OpSize) (c : Option Word32) : Keeps R (pushCode z c) := by
  cases c with
  | none => exact keeps_pure h.frame ()
  | some c => exact keeps_pushFrame h z c

/-! ### The task switch -/

theorem keeps_refuseFaults {α : Type} {m : Exec α} (hm : Keeps R m) : Keeps R (refuseFaults m) := by
  intro s a t ht
  refine hm s a t ?_
  unfold refuseFaults at ht
  split at ht
  · cases ht
  · exact ht

theorem keeps_loadTaskLdt (h : TaskClosed R) (sel : Word16) : Keeps R (loadTaskLdt sel) := by
  refine keeps_ite (keeps_modify fun s => h.ldtr s _) ?_
  refine keeps_bind h.frame (keeps_raiseIf h.frame _ _) fun _ => ?_
  refine keeps_bind h.frame (keeps_readDescriptor h.toMmuClosed _ _) fun d => ?_
  refine keeps_bind h.frame (keeps_raiseIf h.frame _ _) fun _ => ?_
  exact keeps_modify fun s => h.ldtr s _

theorem keeps_loadTaskCode (h : TaskClosed R) (sel : Word16) : Keeps R (loadTaskCode sel) := by
  refine keeps_bind h.frame (keeps_raiseIf h.frame _ _) fun _ => ?_
  refine keeps_bind h.frame (keeps_readDescriptor h.toMmuClosed _ _) fun d => ?_
  refine keeps_bind h.frame (keeps_raiseIf h.frame _ _) fun _ => ?_
  refine keeps_bind h.frame (keeps_raiseIf h.frame _ _) fun _ => ?_
  refine keeps_bind h.frame (keeps_modify fun s => h.cpl s _) fun _ => ?_
  exact keeps_loadSeg h.toEntryClosed _ _ _

theorem keeps_loadTaskStack (h : TaskClosed R) (sel : Word16) : Keeps R (loadTaskStack sel) := by
  refine keeps_bind h.frame (keeps_raiseIf h.frame _ _) fun _ => ?_
  refine keeps_bind h.frame (keeps_readDescriptor h.toMmuClosed _ _) fun d => ?_
  refine keeps_bind h.frame (keeps_get h.frame) fun s => ?_
  refine keeps_bind h.frame (keeps_raiseIf h.frame _ _) fun _ => ?_
  refine keeps_bind h.frame (keeps_raiseIf h.frame _ _) fun _ => ?_
  exact keeps_loadSeg h.toEntryClosed _ _ _

theorem keeps_loadTaskData (h : TaskClosed R) (r : SegReg) (sel : Word16) : Keeps R (loadTaskData r sel) := by
  refine keeps_ite (keeps_modify fun s => h.setSeg s r _) ?_
  refine keeps_bind h.frame (keeps_readDescriptor h.toMmuClosed _ _) fun d => ?_
  refine keeps_bind h.frame (keeps_get h.frame) fun s => ?_
  refine keeps_bind h.frame (keeps_raiseIf h.frame _ _) fun _ => ?_
  refine keeps_bind h.frame (keeps_raiseIf h.frame _ _) fun _ => ?_
  exact keeps_loadSeg h.toEntryClosed _ _ _

theorem TaskClosed.loadV86All (h : TaskClosed R) (s : State) (es cs ss ds fs gs : Word16) :
    R s (s.loadV86All es cs ss ds fs gs) :=
  h.frame.trans s { s with segs := (s.loadV86All es cs ss ds fs gs).segs } _ (h.segs s _)
    (h.cpl { s with segs := (s.loadV86All es cs ss ds fs gs).segs } 3)

theorem keeps_loadTaskSegments (h : TaskClosed R) (c : TaskContext) : Keeps R (loadTaskSegments c) := by
  refine keeps_get_bind fun s b u hu => ?_
  split at hu
  · cases hu
    exact h.loadV86All s _ _ _ _ _ _
  · refine (?_ : Keeps R _) s b u hu
    refine keeps_bind h.frame (keeps_loadTaskCode h _) fun _ => ?_
    refine keeps_bind h.frame (keeps_loadTaskStack h _) fun _ => ?_
    refine keeps_bind h.frame (keeps_loadTaskData h _ _) fun _ => ?_
    refine keeps_bind h.frame (keeps_loadTaskData h _ _) fun _ => ?_
    refine keeps_bind h.frame (keeps_loadTaskData h _ _) fun _ => ?_
    exact keeps_loadTaskData h _ _

/-- A state with CR0.PE = 1. -/
def Protected (s : State) : Prop := s.pe = true

/-- Memory accesses leave CR0 alone. -/
theorem MmuClosed.andCr0 (h : MmuClosed R) : MmuClosed fun s t => R s t ∧ t.cr0 = s.cr0 where
  frame := ⟨fun s => ⟨h.frame.refl s, rfl⟩, fun s t u h1 h2 => ⟨h.frame.trans s t u h1.1 h2.1, h2.2.trans h1.2⟩⟩
  store s pas vs := ⟨h.store s pas vs, by rw [storeBytes_eq]⟩
  tlb s l hl := ⟨h.tlb s l hl, rfl⟩
  draws s n := ⟨h.draws s n, rfl⟩

/-- What keeps CR0 keeps the mode. -/
theorem keepsIf_protected {α : Type} {m : Exec α} (hm : Keeps (fun s t => R s t ∧ t.cr0 = s.cr0) m) :
    KeepsIf Protected (fun s t => R s t ∧ Protected t) m := by
  intro s a t hp ht
  obtain ⟨e, hc⟩ := hm s a t ht
  exact ⟨e, by unfold Protected State.pe at *; rw [hc]; exact hp⟩

theorem keepsIf_of_keeps {α : Type} {P : State → Prop} {m : Exec α} (hm : Keeps R m) : KeepsIf P R m :=
  fun s a t _ ht => hm s a t ht

theorem keepsIf_switchBody (h : TaskClosed R) (sel : Word16) (d : SegCache) (kind : SwitchKind) (eip eflags : Word32) :
    KeepsIf Protected R (switchBody sel d kind eip eflags) := by
  have hm := h.toMmuClosed.andCr0
  refine keepsIf_bind h.frame (keepsIf_protected (keeps_get hm.frame)) fun s => ?_
  refine keepsIf_bind h.frame (keepsIf_protected (keeps_saveContext hm _ _ _)) fun _ => ?_
  refine keepsIf_bind h.frame (keepsIf_protected (keeps_markBusy hm _ _)) fun _ => ?_
  refine keepsIf_bind h.frame (keepsIf_protected (keeps_readContext hm _)) fun c => ?_
  refine keepsIf_bind h.frame (keepsIf_protected (keeps_onlyIf hm.frame _ (keeps_sysWrite hm _ _ _))) fun _ => ?_
  refine keepsIf_bind (Q := fun _ => True) h.frame ?_ fun _ => keepsIf_of_keeps ?_
  · intro s a t hp ht
    cases ht
    exact ⟨h.task s _ kind c hp, trivial⟩
  · refine keeps_bind h.frame (keeps_loadTaskLdt h _) fun _ => ?_
    refine keeps_bind h.frame (keeps_loadTaskSegments h c) fun _ => ?_
    exact keeps_modify fun s => h.setEip s

theorem keepsIf_refuseFaults {α : Type} {P : State → Prop} {m : Exec α} (hm : KeepsIf P R m) :
    KeepsIf P R (refuseFaults m) := by
  intro s a t hp ht
  refine hm s a t hp ?_
  unfold refuseFaults at ht
  split at ht
  · cases ht
  · exact ht

theorem keepsIf_taskSwitch (h : TaskClosed R) (sel : Word16) (d : SegCache) (kind : SwitchKind) (eip eflags ext : Word32) :
    KeepsIf Protected R (taskSwitch sel d kind eip eflags ext) := by
  have hm := h.toMmuClosed.andCr0
  refine keepsIf_bind h.frame (keepsIf_protected (keeps_get hm.frame)) fun s => ?_
  refine keepsIf_bind h.frame (keepsIf_protected (keeps_raiseIf hm.frame _ _)) fun _ => ?_
  refine keepsIf_bind h.frame (keepsIf_protected (keeps_raiseIf hm.frame _ _)) fun _ => ?_
  exact keepsIf_refuseFaults (keepsIf_switchBody h sel d kind eip eflags)

/-! ### Delivery -/

theorem EntryClosed.enterHandler (h : EntryClosed R) (s : State) (ev : Event) : R s (s.enterHandler ev) := by
  unfold State.enterHandler
  split
  · exact h.guard s
  · exact h.frame.refl s

theorem keeps_innerStack16 (h : MmuClosed R) (n : BitVec 2) (ext : Word32) : Keeps R (innerStack16 n ext) := by
  refine keeps_bind h.frame (keeps_get h.frame) fun s => ?_
  refine keeps_bind h.frame (keeps_raiseIf h.frame _ _) fun _ => ?_
  refine keeps_bind h.frame (keeps_tss16 h _ _) fun _ => ?_
  exact keeps_bind h.frame (keeps_tss16 h _ _) fun _ => keeps_pure h.frame _

theorem keeps_innerStack32 (h : MmuClosed R) (n : BitVec 2) (ext : Word32) : Keeps R (innerStack32 n ext) := by
  refine keeps_bind h.frame (keeps_get h.frame) fun s => ?_
  refine keeps_bind h.frame (keeps_raiseIf h.frame _ _) fun _ => ?_
  refine keeps_bind h.frame (keeps_tss32 h _ _) fun _ => ?_
  exact keeps_bind h.frame (keeps_tss16 h _ _) fun _ => keeps_pure h.frame _

theorem keeps_innerStack (h : MmuClosed R) (n : BitVec 2) (ext : Word32) : Keeps R (innerStack n ext) :=
  keeps_bind h.frame (keeps_get h.frame) fun _ => keeps_ite (keeps_innerStack16 h n ext) (keeps_innerStack32 h n ext)

theorem keeps_innerStackSegment (h : MmuClosed R) (sel : Word16) (n : BitVec 2) (ext : Word32) :
    Keeps R (innerStackSegment sel n ext) := by
  refine keeps_bind h.frame (keeps_raiseIf h.frame _ _) fun _ => ?_
  refine keeps_bind h.frame (keeps_readDescriptor h _ _) fun d => ?_
  refine keeps_bind h.frame (keeps_raiseIf h.frame _ _) fun _ => ?_
  exact keeps_bind h.frame (keeps_raiseIf h.frame _ _) fun _ => keeps_pure h.frame _

theorem keeps_pushV86Data (h : EntryClosed R) (z : OpSize) (old : Segs) : Keeps R (pushV86Data z old) := by
  unfold pushV86Data
  repeat refine keeps_bind h.frame (keeps_pushFrame h z _) fun _ => ?_
  exact keeps_modify fun s => h.segs s _

theorem keeps_enterInner (h : EntryClosed R) (z : OpSize) (n : BitVec 2) (ext : Word32) : Keeps R (enterInner z n ext) := by
  refine keeps_bind h.frame (keeps_get h.frame) fun s => ?_
  refine keeps_bind h.frame (keeps_innerStack h.toMmuClosed n ext) fun p => ?_
  obtain ⟨ss, esp⟩ := p
  refine keeps_bind h.frame (keeps_innerStackSegment h.toMmuClosed ss n ext) fun d => ?_
  refine keeps_bind h.frame (keeps_modify fun t => h.level t n) fun _ => ?_
  refine keeps_bind h.frame (keeps_loadSeg h _ _ _) fun _ => ?_
  refine keeps_bind h.frame (keeps_modify fun t => h.esp t esp) fun _ => ?_
  refine keeps_bind h.frame (keeps_onlyIf h.frame _ (keeps_pushV86Data h z _)) fun _ => ?_
  refine keeps_bind h.frame (keeps_pushFrame h z _) fun _ => ?_
  exact keeps_pushFrame h z _

theorem keeps_handlerCode (h : MmuClosed R) (sel : Word16) (ext : Word32) : Keeps R (handlerCode sel ext) := by
  refine keeps_bind h.frame (keeps_get h.frame) fun s => ?_
  refine keeps_bind h.frame (keeps_raiseIf h.frame _ _) fun _ => ?_
  refine keeps_bind h.frame (keeps_readDescriptor h _ _) fun d => ?_
  refine keeps_bind h.frame (keeps_raiseIf h.frame _ _) fun _ => ?_
  refine keeps_bind h.frame (keeps_raiseIf h.frame _ _) fun _ => ?_
  exact keeps_bind h.frame (keeps_raiseIf h.frame _ _) fun _ => keeps_pure h.frame _

/-- Delivery through an interrupt or trap gate. -/
theorem keeps_deliverGate (h : EntryClosed R) (ev : Event) (g : Gate) : Keeps R (deliverGate ev g) := by
  refine keeps_bind h.frame (keeps_get h.frame) fun s => ?_
  refine keeps_bind h.frame (keeps_handlerCode h.toMmuClosed _ _) fun d => ?_
  refine keeps_bind h.frame (keeps_onlyIf h.frame _ (keeps_enterInner h _ _ _)) fun _ => ?_
  refine keeps_bind h.frame (keeps_pushFrame h _ _) fun _ => ?_
  refine keeps_bind h.frame (keeps_pushFrame h _ _) fun _ => ?_
  refine keeps_bind h.frame (keeps_pushFrame h _ _) fun _ => ?_
  refine keeps_bind h.frame (keeps_pushCode h _ _) fun _ => ?_
  refine keeps_bind h.frame (keeps_get h.frame) fun t => ?_
  refine keeps_bind h.frame (keeps_loadSeg h _ _ _) fun _ => ?_
  exact keeps_modify fun t => h.frame.trans t _ _ (h.jump t _ _) (h.enterHandler _ ev)

/-- Delivery in Real Mode. -/
theorem keeps_deliverReal (h : EntryClosed R) (ev : Event) : Keeps R (deliverReal ev) := by
  refine keeps_bind h.frame (keeps_get h.frame) fun s => ?_
  refine keeps_bind h.frame (keeps_raiseIf h.frame _ _) fun _ => ?_
  refine keeps_bind h.frame (keeps_sysRead h.toMmuClosed _ _) fun v => ?_
  refine keeps_bind h.frame (keeps_pushFrame h _ _) fun _ => ?_
  refine keeps_bind h.frame (keeps_pushFrame h _ _) fun _ => ?_
  refine keeps_bind h.frame (keeps_pushFrame h _ _) fun _ => ?_
  exact keeps_modify fun t => h.frame.trans t _ _ (h.loadReal t _ _)
    (h.frame.trans _ _ _ (h.jumpReal (t.loadReal .cs _) _) (h.enterHandler _ ev))

theorem keepsIf_deliverTask (h : TaskClosed R) (ev : Event) (g : Gate) : KeepsIf Protected R (deliverTask ev g) := by
  have hm := h.toMmuClosed.andCr0
  refine keepsIf_bind h.frame (keepsIf_protected (keeps_get hm.frame)) fun s => ?_
  refine keepsIf_bind h.frame (keepsIf_protected (keeps_findTss hm _ _ _ _)) fun d => ?_
  refine keepsIf_bind (Q := fun _ => True) h.frame ?_ fun _ => keepsIf_of_keeps ?_
  · exact fun s a t hp ht => ⟨keepsIf_taskSwitch h _ _ _ _ _ _ s a t hp ht, trivial⟩
  · exact keeps_modify fun t => h.enterHandler t ev

theorem keepsIf_deliverProtected (h : TaskClosed R) (ev : Event) : KeepsIf Protected R (deliverProtected ev) := by
  have hm := h.toMmuClosed.andCr0
  refine keepsIf_bind h.frame (keepsIf_protected (keeps_get hm.frame)) fun s => ?_
  refine keepsIf_bind h.frame (keepsIf_protected (keeps_raiseIf hm.frame _ _)) fun _ => ?_
  refine keepsIf_bind h.frame (keepsIf_protected (keeps_sysRead hm _ _)) fun v => ?_
  refine keepsIf_bind h.frame (keepsIf_protected (keeps_raiseIf hm.frame _ _)) fun _ => ?_
  refine keepsIf_bind h.frame (keepsIf_protected (keeps_raiseIf hm.frame _ _)) fun _ => ?_
  refine keepsIf_bind h.frame (keepsIf_protected (keeps_raiseIf hm.frame _ _)) fun _ => ?_
  split
  · refine keepsIf_bind (Q := fun _ => True) h.frame ?_ fun _ => keepsIf_of_keeps (keeps_pure h.frame _)
    exact fun s a t hp ht => ⟨keepsIf_deliverTask h ev _ s a t hp ht, trivial⟩
  · exact keepsIf_of_keeps (keeps_bind h.frame (keeps_deliverGate h.toEntryClosed ev _) fun _ => keeps_pure h.frame _)

theorem keeps_deliver (h : TaskClosed R) (ev : Event) : Keeps R (deliver ev) := by
  refine keeps_get_bind fun s b u hu => ?_
  split at hu
  · next hp => exact keepsIf_deliverProtected h ev s b u hp hu
  · exact keeps_bind h.frame (keeps_deliverReal h.toEntryClosed ev) (fun _ => keeps_pure h.frame _) s b u hu

/-! ### Taking an exception -/

/-- A relation that holds over what raising an exception writes and over shutting down. -/
structure RaiseClosed (R : State → State → Prop) : Prop extends TaskClosed R where
  raised : ∀ s e, R s (s.raised e)
  down : ∀ s, R s s.shutDown

/-- The states an outcome goes on to are related to `s`. -/
def KeepsFrom (R : State → State → Prop) (s : State) (o : Host.Outcome State Fault Refusal) : Prop :=
  ∀ t, o = .next t → R s t

/-- What an attempt to deliver an event leaves: the state of the handler, or the state a fault strikes in. -/
theorem keeps_attempt (h : TaskClosed R) (ev : Event) (s : State) :
    (∀ t, attempt ev s = .done t → R s t) ∧ ∀ e t, attempt ev s = .faulted e t → R s t := by
  unfold attempt
  rw [exec_run]
  cases hd : deliver ev s with
  | error e => cases e <;> refine ⟨fun t ht => ?_, fun e t ht => ?_⟩ <;> cases ht; exact h.frame.refl s
  | ok x =>
    obtain ⟨code, u⟩ := x
    have hu := keeps_deliver h ev s _ _ hd
    dsimp only
    rw [exec_run]
    cases hp : pushCode .s32 code u with
    | error e => cases e <;> refine ⟨fun t ht => ?_, fun e t ht => ?_⟩ <;> cases ht; exact hu
    | ok y =>
      refine ⟨fun t ht => ?_, fun e t ht => ?_⟩ <;> cases ht
      exact h.frame.trans s u _ hu (keeps_pushCode h.toEntryClosed _ _ u _ _ hp)

theorem keepsFrom_deliverFrom (h : RaiseClosed R) (n : Nat) (c : FaultClass) (ev : Event) (s : State) :
    KeepsFrom R s (deliverFrom n c ev s) := by
  induction n generalizing c ev s with
  | zero =>
    intro t ht
    cases ht
    exact h.down s
  | succ n ih =>
    intro t ht
    unfold deliverFrom at ht
    split at ht
    · next u hu =>
      cases ht
      exact (keeps_attempt h.toTaskClosed ev s).1 _ hu
    · cases ht
    · next e u hu =>
      have hs := h.frame.trans s u _ ((keeps_attempt h.toTaskClosed ev s).2 _ _ hu) (h.raised u e)
      dsimp only at ht
      split at ht
      · cases ht
        exact h.frame.trans s _ _ hs (h.down _)
      split at ht
      · exact h.frame.trans s _ _ hs (ih _ _ _ t ht)
      · exact h.frame.trans s _ _ hs (ih _ _ _ t ht)

theorem keepsFrom_takeEvent (h : RaiseClosed R) (ev : Event) (s : State) : KeepsFrom R s (takeEvent ev s) :=
  keepsFrom_deliverFrom h 5 _ ev s

/-- A trap keeps what delivery keeps and the noting of single step. -/
theorem keepsFrom_takeTrap (h : RaiseClosed R) (hp : ∀ s b, R s (State.stepped s b)) (ev : Event) (s : State) :
    KeepsFrom R s (takeTrap ev s) := by
  intro t ht
  unfold takeTrap at ht
  split at ht
  · next u hu =>
    cases ht
    exact h.frame.trans s u _ ((keeps_attempt h.toTaskClosed ev s).1 _ hu) (hp u _)
  · exact keepsFrom_takeEvent h ev s t ht

theorem keepsFrom_takeException (h : RaiseClosed R) (e : Exn) (s : State) : KeepsFrom R s (takeException e s) :=
  fun t ht => h.frame.trans s _ _ (h.raised s e) (keepsFrom_deliverFrom h 5 _ _ _ t ht)

/-- A computation whose answers are related to `s`, settled in `s`. -/
theorem keepsFrom_settle (h : RaiseClosed R) {m : Exec Unit} {s : State} (hm : ∀ t, m s = .ok ((), t) → R s t) :
    KeepsFrom R s (settle s (m.run s)) := by
  intro t ht
  rw [exec_run] at ht
  cases hms : m s with
  | ok x =>
    obtain ⟨_, u⟩ := x
    rw [hms] at ht
    cases ht
    exact hm _ hms
  | error e =>
    rw [hms] at ht
    cases e with
    | exc e => exact keepsFrom_takeException h e s t ht
    | refused r => cases ht

theorem keeps_checkPrefixes (h : IsFrame R) (p : List Prefix) : Keeps R (checkPrefixes p) :=
  keeps_bind h (keeps_raiseIf h _ _) fun _ => keeps_refuseIf h _ _

theorem keeps_requirePrivilege (h : IsFrame R) : Keeps R requirePrivilege :=
  keeps_bind h (keeps_get h) fun _ => keeps_raiseIf h _ _

/-- An instruction that goes on to the next one keeps what its body, the advance and delivery keep. -/
theorem keepsFrom_runInstr (h : RaiseClosed R) (i : Instr) (body : Exec Unit) (s : State)
    (hb : ∀ t, body s = .ok ((), t) → R s (s.advance t i)) : KeepsFrom R s (runInstr i body s) := by
  refine keepsFrom_settle h fun t ht => ?_
  obtain ⟨_, s1, h1, ht⟩ := exec_bind_ok ht
  have hs : s1 = s := by
    have := keeps_checkPrefixes (R := fun a b => b = a) ⟨fun _ => rfl, fun _ _ _ h1 h2 => h2.trans h1⟩ i.prefixes s _ _ h1
    exact this
  subst hs
  obtain ⟨_, t1, h2, h3⟩ := exec_bind_ok ht
  cases h3
  exact hb t1 h2

/-- An instruction that writes EIP itself. -/
theorem keepsFrom_runTransfer (h : RaiseClosed R) (i : Instr) (body : Exec Unit) (s : State)
    (hb : ∀ t, body s = .ok ((), t) → R s (t.stepped s.tf)) :
    KeepsFrom R s (runTransfer i body s) := by
  refine keepsFrom_settle h fun t ht => ?_
  obtain ⟨_, s1, h1, ht⟩ := exec_bind_ok ht
  have hs : s1 = s := by
    have := keeps_checkPrefixes (R := fun a b => b = a) ⟨fun _ => rfl, fun _ _ _ h1 h2 => h2.trans h1⟩ i.prefixes s _ _ h1
    exact this
  subst hs
  obtain ⟨_, t1, h2, h3⟩ := exec_bind_ok ht
  cases h3
  exact hb t1 h2

/-! ### IRET -/

theorem keeps_popFrame (h : ReturnClosed R) (z : OpSize) : Keeps R (popFrame z) := by
  unfold popFrame
  repeat refine keeps_bind h.frame (keeps_pop h.toEntryClosed h.toOperandClosed z) fun _ => ?_
  exact keeps_pure h.frame _

theorem keeps_iretReal (h : ReturnClosed R) (z : OpSize) : Keeps R (iretReal z) := by
  refine keeps_get_bind fun s b u hu => ?_
  obtain ⟨⟨eip, cs, fl⟩, t, h1, h2⟩ := exec_bind_ok hu
  cases h2
  exact h.iret s _ eip z fl (h.frame.trans s t _ (keeps_popFrame h z s _ t h1) (h.loadReal t _ _))

theorem keeps_iretVirtual (h : ReturnClosed R) : Keeps R iretVirtual := by
  refine keeps_get_bind fun s b u hu => ?_
  obtain ⟨⟨eip, cs, fl⟩, t, h1, hu⟩ := exec_bind_ok hu
  obtain ⟨_, t1, h2, hu⟩ := exec_bind_ok hu
  obtain ⟨_, t2, h3, hu⟩ := exec_bind_ok hu
  cases hu
  have e1 : R t t1 := keeps_raiseIf h.frame _ _ t _ t1 h2
  have e2 : R t1 t2 := keeps_raiseIf h.frame _ _ t1 _ t2 h3
  have e0 := keeps_popFrame h .s16 s _ t h1
  exact h.iretVirtual s _ eip _ (h.frame.trans s t2 _ (h.frame.trans s t1 _ (h.frame.trans s t _ e0 e1) e2) (h.loadReal t2 _ _))

theorem keepsIf_iretTask (h : ReturnClosed R) (next : Word32) : KeepsIf Protected R (iretTask next) := by
  have hm := h.toMmuClosed.andCr0
  refine keepsIf_bind h.frame (keepsIf_protected (keeps_get hm.frame)) fun s => ?_
  refine keepsIf_bind h.frame (keepsIf_protected (keeps_tss16 hm _ _)) fun sel => ?_
  refine keepsIf_bind h.frame (keepsIf_protected (keeps_findTss hm _ _ _ _)) fun d => ?_
  exact keepsIf_taskSwitch h.toTaskClosed _ _ _ _ _ _

theorem keeps_iretToV86 (h : ReturnClosed R) (eip : Word32) (cs : Word16) (fl : Word32) : Keeps R (iretToV86 eip cs fl) := by
  refine keeps_get_bind fun s b u hu => ?_
  obtain ⟨x1, t1, h1, hu⟩ := exec_bind_ok hu
  obtain ⟨x2, t2, h2, hu⟩ := exec_bind_ok hu
  obtain ⟨x3, t3, h3, hu⟩ := exec_bind_ok hu
  obtain ⟨x4, t4, h4, hu⟩ := exec_bind_ok hu
  obtain ⟨x5, t5, h5, hu⟩ := exec_bind_ok hu
  obtain ⟨x6, t6, h6, hu⟩ := exec_bind_ok hu
  cases hu
  have hp := keeps_pop h.toEntryClosed h.toOperandClosed .s32
  have tr := h.frame.trans
  have e := tr s _ _ (tr s _ _ (tr s _ _ (tr s _ _ (tr s _ _ (hp s _ _ h1) (hp _ _ _ h2)) (hp _ _ _ h3)) (hp _ _ _ h4))
    (hp _ _ _ h5)) (hp _ _ _ h6)
  exact h.iret s _ _ .s32 fl (tr s _ _ (tr s _ _ e (h.loadV86All t6 _ _ _ _ _ _)) (h.esp _ _))

theorem keeps_returnCode (h : MmuClosed R) (sel : Word16) (eip : Word32) : Keeps R (returnCode sel eip) := by
  refine keeps_bind h.frame (keeps_get h.frame) fun s => ?_
  refine keeps_bind h.frame (keeps_raiseIf h.frame _ _) fun _ => ?_
  refine keeps_bind h.frame (keeps_readDescriptor h _ _) fun d => ?_
  refine keeps_bind h.frame (keeps_raiseIf h.frame _ _) fun _ => ?_
  refine keeps_bind h.frame (keeps_raiseIf h.frame _ _) fun _ => ?_
  exact keeps_bind h.frame (keeps_raiseIf h.frame _ _) fun _ => keeps_pure h.frame _

theorem keeps_iretOuterStack (h : ReturnClosed R) (z : OpSize) (n : BitVec 2) : Keeps R (iretOuterStack z n) := by
  refine keeps_bind h.frame (keeps_pop h.toEntryClosed h.toOperandClosed z) fun esp => ?_
  refine keeps_bind h.frame (keeps_pop h.toEntryClosed h.toOperandClosed z) fun ss => ?_
  refine keeps_bind h.frame (keeps_raiseIf h.frame _ _) fun _ => ?_
  refine keeps_bind h.frame (keeps_readDescriptor h.toMmuClosed _ _) fun d => ?_
  refine keeps_bind h.frame (keeps_raiseIf h.frame _ _) fun _ => ?_
  refine keeps_bind h.frame (keeps_raiseIf h.frame _ _) fun _ => ?_
  refine keeps_bind h.frame (keeps_loadSeg h.toEntryClosed _ _ _) fun _ => ?_
  exact keeps_modify fun t => h.frame.trans t _ _ (h.esp t esp) (h.segs (t.setReg .esp esp) _)

theorem keeps_iretProtected (h : ReturnClosed R) (z : OpSize) (eip : Word32) (cs : Word16) (fl : Word32) :
    Keeps R (iretProtected z eip cs fl) := by
  refine keeps_get_bind fun s b u hu => ?_
  obtain ⟨d, t1, h1, hu⟩ := exec_bind_ok hu
  obtain ⟨_, t2, h2, hu⟩ := exec_bind_ok hu
  obtain ⟨_, t3, h3, hu⟩ := exec_bind_ok hu
  cases hu
  have e1 := keeps_returnCode h.toMmuClosed cs eip s _ _ h1
  have e2 : R t1 t2 := keeps_onlyIf h.frame _ (keeps_iretOuterStack h z _) t1 _ _ h2
  have e3 := keeps_loadSeg h.toEntryClosed .cs cs d t2 _ _ h3
  have e := h.iret s t3 eip z fl (h.frame.trans s _ _ (h.frame.trans s _ _ e1 e2) e3)
  exact h.frame.trans s _ _ e (h.cpl _ _)

theorem keeps_iretBody (h : ReturnClosed R) (z : OpSize) (next : Word32) : Keeps R (iretBody z next) := by
  refine keeps_get_bind fun s b u hu => ?_
  split at hu
  · exact keeps_iretReal h z s b u hu
  next hp =>
  split at hu
  · refine (keeps_ite (keeps_iretReal h z) (keeps_ite (keeps_iretVirtual h) (keeps_raise _)) : Keeps R _) s b u hu
  split at hu
  · exact keepsIf_iretTask h next s b u (by simpa [Protected] using hp) hu
  · refine (?_ : Keeps R _) s b u hu
    refine keeps_bind h.frame (keeps_popFrame h z) fun p => ?_
    exact keeps_ite (keeps_iretToV86 h _ _ _) (keeps_iretProtected h z _ _ _)

/-- The return from an exception. -/
theorem keeps_returnFromException (h : ReturnClosed R) (z : OpSize) (next : Word32) :
    Keeps R (returnFromException z next) :=
  keeps_bind h.frame (keeps_iretBody h z next) fun _ => keeps_modify fun s => h.unblock s

end Sys2Proof.Machine
end

