-- ==== Sys2Proof/Laws/PerInstr.lean ====
section
/-! SUPPORT. A statement made of every instruction, one lemma per constructor: the encoding has the length that
30_encoding.md R209 gives. -/

namespace Sys2Proof.Laws.EncodeSize

/-- The encoding of `i` has the length the decoder's length rule gives (30_encoding.md R209). -/
def Statement (i : Instr) : Prop := (encode i).length = i.size

theorem of_body {i : Instr} (h : (encodeBody i).length = i.bodySize) : Statement i := by
  simp [Statement, encode, Instr.size, h]

theorem sgdt (p : List Prefix) (o : RmOp) : Statement (.sgdt p o) :=
  of_body (by rw [encodeBody, List.length_append, encodeRm_length]; rfl)

theorem sidt (p : List Prefix) (o : RmOp) : Statement (.sidt p o) :=
  of_body (by rw [encodeBody, List.length_append, encodeRm_length]; rfl)

theorem lgdt (p : List Prefix) (o : RmOp) : Statement (.lgdt p o) :=
  of_body (by rw [encodeBody, List.length_append, encodeRm_length]; rfl)

theorem lidt (p : List Prefix) (o : RmOp) : Statement (.lidt p o) :=
  of_body (by rw [encodeBody, List.length_append, encodeRm_length]; rfl)

theorem sldt (p : List Prefix) (o : RmOp) : Statement (.sldt p o) :=
  of_body (by rw [encodeBody, List.length_append, encodeRm_length]; rfl)

theorem str (p : List Prefix) (o : RmOp) : Statement (.str p o) :=
  of_body (by rw [encodeBody, List.length_append, encodeRm_length]; rfl)

theorem lldt (p : List Prefix) (o : RmOp) : Statement (.lldt p o) :=
  of_body (by rw [encodeBody, List.length_append, encodeRm_length]; rfl)

theorem ltr (p : List Prefix) (o : RmOp) : Statement (.ltr p o) :=
  of_body (by rw [encodeBody, List.length_append, encodeRm_length]; rfl)

theorem movFromCr (p : List Prefix) (m : BitVec 2) (n : BitVec 3) (r : Gpr) : Statement (.movFromCr p m n r) :=
  of_body rfl

theorem movToCr (p : List Prefix) (m : BitVec 2) (n : BitVec 3) (r : Gpr) : Statement (.movToCr p m n r) :=
  of_body rfl

theorem smsw (p : List Prefix) (o : RmOp) : Statement (.smsw p o) :=
  of_body (by rw [encodeBody, List.length_append, encodeRm_length]; rfl)

theorem lmsw (p : List Prefix) (o : RmOp) : Statement (.lmsw p o) :=
  of_body (by rw [encodeBody, List.length_append, encodeRm_length]; rfl)

theorem clts (p : List Prefix) : Statement (.clts p) :=
  of_body rfl

theorem movFromDr (p : List Prefix) (m : BitVec 2) (n : BitVec 3) (r : Gpr) : Statement (.movFromDr p m n r) :=
  of_body rfl

theorem movToDr (p : List Prefix) (m : BitVec 2) (n : BitVec 3) (r : Gpr) : Statement (.movToDr p m n r) :=
  of_body rfl

theorem movFromTr (p : List Prefix) (m : BitVec 2) (n : BitVec 3) (r : Gpr) : Statement (.movFromTr p m n r) :=
  of_body rfl

theorem movToTr (p : List Prefix) (m : BitVec 2) (n : BitVec 3) (r : Gpr) : Statement (.movToTr p m n r) :=
  of_body rfl

theorem int3 (p : List Prefix) : Statement (.int3 p) :=
  of_body rfl

theorem wrmsr (p : List Prefix) : Statement (.wrmsr p) :=
  of_body rfl

theorem rdtsc (p : List Prefix) : Statement (.rdtsc p) :=
  of_body rfl

theorem rdmsr (p : List Prefix) : Statement (.rdmsr p) :=
  of_body rfl

theorem rdpmc (p : List Prefix) : Statement (.rdpmc p) :=
  of_body rfl

theorem cpuid (p : List Prefix) : Statement (.cpuid p) :=
  of_body rfl

theorem callPtr (p : List Prefix) (f : FarPtr) : Statement (.callPtr p f) :=
  of_body (by simp [encodeBody, Instr.bodySize, Nat.add_comm])

theorem callMem (p : List Prefix) (o : RmOp) : Statement (.callMem p o) :=
  of_body (by simp [encodeBody, Instr.bodySize, Nat.add_comm])

theorem iret (p : List Prefix) : Statement (.iret p) :=
  of_body rfl

theorem wait (p : List Prefix) : Statement (.wait p) :=
  of_body rfl

theorem esc (p : List Prefix) (x : BitVec 3) (g : BitVec 3) (o : RmOp) : Statement (.esc p x g o) :=
  of_body (by simp [encodeBody, Instr.bodySize, Nat.add_comm])

end Sys2Proof.Laws.EncodeSize
end

