-- ==== Sys2Proof/Laws/Run.lean ====
section
/-! SUPPORT. How an instruction begins and ends, once: a body that answers, raises or is refused gives the outcome of its
instruction; where a fetch ends at the latest. -/

namespace Sys2Proof.Machine

theorem checkPrefixes_plain {p : List Prefix} (h : Plain p) (s : State) : checkPrefixes p s = .ok ((), s) := by
  obtain ⟨a, b, c⟩ := h
  have e1 : p.contains Prefix.lock = false := by simpa using a
  have e2 : p.contains Prefix.repne = false := by simpa using b
  have e3 : p.contains Prefix.rep = false := by simpa using c
  unfold checkPrefixes
  rw [e1, e2, e3]
  rfl

theorem checkPrefixes_lock {p : List Prefix} (h : Prefix.lock ∈ p) (s : State) :
    checkPrefixes p s = .error (.exc .ud) := by
  have e : p.contains Prefix.lock = true := by simpa using h
  unfold checkPrefixes
  rw [e]
  rfl

/-- An instruction whose body answers goes on to the next one. -/
theorem runInstr_ok {i : Instr} {body : Exec Unit} {s t u : State} (hp : Plain i.prefixes) (h : body s = .ok ((), t))
    (e : s.advance t i = u) : runInstr i body s = .next u := by
  subst e
  unfold runInstr
  rw [exec_run, exec_bind_of_ok (checkPrefixes_plain hp s), exec_bind_of_ok h]
  rfl

/-- An instruction whose body raises takes the exception in the state it began in. -/
theorem runInstr_raises {i : Instr} {body : Exec Unit} {s : State} {e : Exn} (hp : Plain i.prefixes)
    (h : body s = .error (.exc e)) : runInstr i body s = takeException e s := by
  unfold runInstr
  rw [exec_run, exec_bind_of_ok (checkPrefixes_plain hp s), exec_bind_of_error h]
  rfl

theorem runInstr_refused {i : Instr} {body : Exec Unit} {s : State} {r : Refusal} (hp : Plain i.prefixes)
    (h : body s = .error (.refused r)) : runInstr i body s = .refused r := by
  unfold runInstr
  rw [exec_run, exec_bind_of_ok (checkPrefixes_plain hp s), exec_bind_of_error h]
  rfl

/-- A transfer whose body answers ends in the body's state, with single step noted. -/
theorem runTransfer_ok {i : Instr} {body : Exec Unit} {s t : State} (hp : Plain i.prefixes) (h : body s = .ok ((), t)) :
    runTransfer i body s = .next { t with pending := { t.pending with singleStep := s.tf } } := by
  unfold runTransfer
  rw [exec_run, exec_bind_of_ok (checkPrefixes_plain hp s), exec_bind_of_ok h]
  rfl

theorem runTransfer_raises {i : Instr} {body : Exec Unit} {s : State} {e : Exn} (hp : Plain i.prefixes)
    (h : body s = .error (.exc e)) : runTransfer i body s = takeException e s := by
  unfold runTransfer
  rw [exec_run, exec_bind_of_ok (checkPrefixes_plain hp s), exec_bind_of_error h]
  rfl

theorem runTransfer_refused {i : Instr} {body : Exec Unit} {s : State} {r : Refusal} (hp : Plain i.prefixes)
    (h : body s = .error (.refused r)) : runTransfer i body s = .refused r := by
  unfold runTransfer
  rw [exec_run, exec_bind_of_ok (checkPrefixes_plain hp s), exec_bind_of_error h]
  rfl

theorem requirePrivilege_ok {s : State} (h : s.cpl = 0) : requirePrivilege s = .ok ((), s) := by
  simp [requirePrivilege, exec_bind, State.privileged, h]

theorem requirePrivilege_raises {s : State} (h : s.cpl ≠ 0) : requirePrivilege s = .error (.exc (.gp 0)) := by
  simpa [requirePrivilege, exec_bind, exec_raiseIf, State.privileged] using h

/-- A push through an accessible and aligned slot. -/
theorem push_ok {z : OpSize} {v : Word32} {s t : State} {pas : List Word32}
    (h : operandBytes .ss true (s.pushOffset z) (slotBytes z) s = .ok (pas, t))
    (ha : checkAlignment .ss (s.pushOffset z) (slotBytes z) t = .ok ((), t)) :
    push z v s = .ok ((), (t.storeBytes pas (toBytes (slotBytes z) v.toNat)).setStackTop (s.pushOffset z)) := by
  unfold push
  rw [exec_bind_of_ok (exec_get s)]
  have : lmemWrite .ss (s.pushOffset z) (slotBytes z) v.toNat s
      = .ok ((), t.storeBytes pas (toBytes (slotBytes z) v.toNat)) := by
    unfold lmemWrite
    rw [exec_bind_of_ok h, exec_bind_of_ok ha]
    rfl
  rw [exec_bind_of_ok this]
  rfl

/-- A push of delivery with paging off. -/
theorem pushFrame_flat {z : OpSize} {v : Word32} {s : State} (h : s.paging = false)
    (ha : s.segAllows .ss true (s.pushOffset z) (slotBytes z) = true)
    (hd : s.deviceAt (addrsFrom (s.linear .ss (s.pushOffset z)) (slotBytes z)) = false) :
    pushFrame z v s = .ok ((), (s.storeBytes (addrsFrom (s.linear .ss (s.pushOffset z)) (slotBytes z))
      (toBytes (slotBytes z) v.toNat)).setStackTop (s.pushOffset z)) := by
  unfold pushFrame
  rw [exec_bind_of_ok (exec_get s), ha, Bool.not_true, exec_bind_of_ok (exec_raiseIf_false _ s), exec_bind_of_ok (memWrite_flat h _ _ hd)]
  rfl

/-- No segment holds more than 2^32 bytes from EIP on. -/
theorem codeInLimit_le {s : State} {n : Nat} (h : s.codeInLimit n = true) : n ≤ 0x100000000 := by
  unfold State.codeInLimit SegCache.inLimit at h
  have hl := s.segs.cs.cache.limit.isLt
  split at h
  · split at h
    · simp only [Bool.and_eq_true, decide_eq_true_eq] at h
      have := h.2
      split at this <;> omega
    · have hb : s.segs.cs.cache.byteLimit < 0x100000000 := by unfold SegCache.byteLimit; split <;> omega
      simp only [decide_eq_true_eq] at h
      omega
  · simp only [decide_eq_true_eq] at h
    omega

/-- The fetch never runs out: after 2^32 bytes the limit check ends it. -/
theorem fetchFrom_exhausted (s : State) : fetchFrom 0 0x100000001 s = .error (.exc (.gp 0)) := by
  have h : s.codeInLimit 0x100000001 = false := by
    by_contra hc
    exact absurd (codeInLimit_le (Bool.eq_true_of_not_eq_false hc)) (by decide)
  have hf : fetchBytes 0x100000001 s = .error (.exc (.gp 0)) := by
    unfold fetchBytes
    rw [exec_bind_of_ok (exec_get s), h]
    rfl
  unfold fetchFrom
  rw [hf]

/-! ### Loads in Real Mode and Virtual-86 Mode -/

theorem SegCache.real_eq_atParagraph (c : SegCache) (sel : Word16) : c.real sel = c.atParagraph sel :=
  congrArg (SegCache.mk _ _) ((by decide +kernel : ∀ a : BitVec 12, setBit a 11 false = a &&& 0x7FF) c.attr)

/-- A load of CS there changes CS only (10_state.md R46). -/
theorem State.loadReal_cs (s : State) (sel : Word16) : s.loadReal .cs sel = { s with segs := s.realCs sel } := by
  simp only [State.loadReal, SegCache.real_eq_atParagraph]
  rfl

end Sys2Proof.Machine
end

