-- ==== Sys2Proof/Tests/Slice0.lean ====
section
/-! SUPPORT. Tests: ill-formed terms refused, the word of every constructor written out from 30_encoding.md, vectors of
95_test_vectors.md, and for every statement with hypotheses a state and operands that meet them. Expected results are the
spec's own: each theorem names its vector or rule. -/

namespace Sys2Proof.Tests

-- One theorem at a time: in parallel the kernel evaluations need more memory than a check of the package has.
set_option Elab.async false

open Sys2Proof Sys2Proof.Machine

/-! ### Helpers -/

/-- Bytes stored at a physical address and after it. -/
def poke (s : State) (a : Word32) (bs : List Byte) : State := s.storeBytes (addrsFrom a bs.length) bs

/-- Bytes read at a physical address and after it. -/
def peek (s : State) (a : Word32) (n : Nat) : List Byte := s.bytesAt (addrsFrom a n)

/-- One segment for code and one for data. -/
def flat (cs data : SegCache) (csSel sel : Word16) : Segs :=
  { es := { sel := sel, cache := data }, cs := { sel := csSel, cache := cs }, ss := { sel := sel, cache := data }
    ds := { sel := sel, cache := data }, fs := { sel := sel, cache := data }, gs := { sel := sel, cache := data } }

/-- A 64 KB segment at 0, as Real Mode has them. -/
def low : SegCache := { base := 0, limit := 0xFFFF, attr := 0x093 }

/-- A flat 32-bit code segment of level `n`. -/
def code32 (n : BitVec 2) : SegCache := { base := 0, limit := 0xFFFFF, attr := 0xC9B ||| (n.setWidth 12 <<< 5) }

/-- A flat 32-bit data segment of level `n`. -/
def data32 (n : BitVec 2) : SegCache := { base := 0, limit := 0xFFFFF, attr := 0xC93 ||| (n.setWidth 12 <<< 5) }

/-- RM of 95_test_vectors.md: code at 0000:7C00, stack at 0000:7000. -/
def real (code : List Byte) : State :=
  poke { State.reset with segs := flat low low 0 0, eip := 0x7C00, gpr := { State.reset.gpr with esp := 0x7000 } } 0x7C00 code

/-- PM0 of 95_test_vectors.md: code at 0x00100000, stack at 0x8000, GDT at 0x12000, IDT at 0x13000. -/
def prot (code : List Byte) : State :=
  poke { State.reset with
    cr0 := 0x60000011, segs := flat (code32 0) (data32 0) 0x08 0x10, eip := 0x00100000
    gpr := { State.reset.gpr with esp := 0x8000 }
    gdtr := { base := 0x12000, limit := 0x3FF }, idtr := { base := 0x13000, limit := 0x7FF }
    tr := { sel := 0x38, cache := { base := 0x40000, limit := 0x67, attr := 0x08B } } } 0x00100000 code

/-- As `prot` with the descriptors of V7, V8, V9 and a busy TSS as entries 1, 5, 6, 7 of the GDT, and #GP's gate. -/
def tables (code : List Byte) : State :=
  poke (poke (poke (poke (poke (prot code) 0x12008 [0xFF, 0xFF, 0, 0, 0, 0x9B, 0xCF, 0])
    0x12028 [0xFF, 0, 0, 0, 2, 0x82, 0, 0]) 0x12030 [0x67, 0, 0, 0, 3, 0x89, 0, 0]) 0x12038 [0x67, 0, 0, 0, 4, 0x8B, 0, 0])
    0x13068 [0, 0, 8, 0, 0, 0x8E, 0x20, 0]

/-- Level 3 of Protected Mode. -/
def user (code : List Byte) : State :=
  { tables code with segs := flat (code32 3) (data32 3) 0x1B 0x23, cplField := 3, gpr := { State.reset.gpr with esp := 0xF000 } }

/-- Virtual-86 Mode with IOPL 3. -/
def v86 (code : List Byte) : State :=
  { real code with cr0 := 0x60000011, eflags := 0x00023002, cplField := 3 }

/-- Paging on: the page of 0x00400000 is that of the table at 0x00101000, which maps 0x00401000 to 0x00345000 (V13). -/
def paged : State :=
  poke (poke { prot [] with cr0 := 0xE0000011, cr3 := 0x00100000 } 0x00100004 [7, 0x10, 0x10, 0]) 0x00101004 [7, 0x50, 0x34, 0]

/-- An entry that maps page 0x00012 to page 0x00345 (V61). -/
def entry61 : TlbEntry := { lin := 0x12, v := true, d := true, u := false, w := true, phys := 0x345 }

/-- Paging on with the entry of V61 in block 0. -/
def hit : State := { paged with tlb := State.reset.tlb.set 2 entry61 }

def withEax (s : State) (v : Word32) : State := s.setReg .eax v
def withEbx (s : State) (v : Word32) : State := s.setReg .ebx v
def withEcx (s : State) (v : Word32) : State := s.setReg .ecx v

/-- The outcome is a next state of which `f` holds. -/
def after (o : Host.Outcome State Fault Refusal) (f : State → Bool) : Bool :=
  match o with
  | .next t => f t
  | _ => false

/-- The refusal, if it is one. -/
def refusal (o : Host.Outcome State Fault Refusal) : Option Refusal :=
  match o with
  | .refused r => some r
  | _ => none

/-- `n` steps. -/
def steps (n : Nat) (s : State) : Host.Outcome State Fault Refusal := Host.Core.run Sys2Proof.core n s

/-- A computation that answers. -/
def answers {α : Type} (r : Except Stop (α × State)) : Bool :=
  match r with
  | .ok _ => true
  | .error _ => false

theorem of_answers {α : Type} {r : Except Stop (α × State)} (h : answers r = true) : ∃ a t, r = .ok (a, t) := by
  cases r with
  | ok x => exact ⟨x.1, x.2, rfl⟩
  | error e => cases h

theorem of_after {o : Host.Outcome State Fault Refusal} {f : State → Bool} (h : after o f = true) : ∃ t, o = .next t := by
  cases o with
  | next t => exact ⟨t, rfl⟩
  | fault r => cases h
  | refused r => cases h

/-- A computation that stops, and how. -/
def stops {α : Type} (r : Except Stop (α × State)) (e : Stop) : Bool :=
  match r with
  | .ok _ => false
  | .error e' => e' == e

theorem of_stops {α : Type} {r : Except Stop (α × State)} {e : Stop} (h : stops r e = true) : r = .error e := by
  cases r with
  | ok x => cases h
  | error e' => exact congrArg _ (beq_iff_eq.mp h)

/-! ### Terms no encoding stands for (30_encoding.md R190, R200 to R203) -/

theorem test_refuses_bp_alone : Instr.wellFormed .s16 (.sgdt [] (.mem16 (.base .bp .none))) = false := by decide
theorem test_refuses_esp_without_sib : Instr.wellFormed .s32 (.sgdt [] (.mem32 (.base .esp .none))) = false := by decide
theorem test_refuses_ebp_alone : Instr.wellFormed .s32 (.sgdt [] (.mem32 (.base .ebp .none))) = false := by decide
theorem test_refuses_sib_ebp_alone : Instr.wellFormed .s32 (.sgdt [] (.mem32 (.sib 0 .eax .ebp .none))) = false := by decide
theorem test_refuses_other_address_size : Instr.wellFormed .s32 (.sgdt [] (.mem16 (.direct 0))) = false := by decide
theorem test_refuses_other_pointer_size : Instr.wellFormed .s16 (.callPtr [] (.ptr32 0 0)) = false := by decide
theorem test_refuses_16_bytes :
    Instr.wellFormed .s32 (.lgdt (List.replicate 9 .lock) (.mem32 (.direct 0))) = false := by decide

/-! ### The word of every constructor (30_encoding.md R196 to R208) -/

theorem test_word_sgdt : decode .s32 [0x0F, 0x01, 0x05, 0x00, 0x20, 0x00, 0x00]
    = .ok (.sgdt [] (.mem32 (.direct 0x2000)), []) := by decide
theorem test_word_sidt : decode .s32 [0x0F, 0x01, 0x0B] = .ok (.sidt [] (.mem32 (.base .ebx .none)), []) := by decide
theorem test_word_lgdt : decode .s16 [0x66, 0x0F, 0x01, 0x16, 0x00, 0x10]
    = .ok (.lgdt [.opSize] (.mem16 (.direct 0x1000)), []) := by decide
theorem test_word_lidt : decode .s32 [0x0F, 0x01, 0x1D, 0x06, 0x10, 0x00, 0x00]
    = .ok (.lidt [] (.mem32 (.direct 0x1006)), []) := by decide
theorem test_word_sldt : decode .s32 [0x0F, 0x00, 0xC1] = .ok (.sldt [] (.reg .ecx), []) := by decide
theorem test_word_str : decode .s32 [0x0F, 0x00, 0xCA] = .ok (.str [] (.reg .edx), []) := by decide
theorem test_word_lldt : decode .s32 [0x0F, 0x00, 0xD0] = .ok (.lldt [] (.reg .eax), []) := by decide
theorem test_word_ltr : decode .s32 [0x0F, 0x00, 0xD8] = .ok (.ltr [] (.reg .eax), []) := by decide
theorem test_word_mov_from_cr : decode .s32 [0x0F, 0x20, 0xD3] = .ok (.movFromCr [] 3 2 .ebx, []) := by decide
theorem test_word_mov_to_cr : decode .s32 [0x0F, 0x22, 0xE0] = .ok (.movToCr [] 3 4 .eax, []) := by decide
theorem test_word_smsw : decode .s32 [0x0F, 0x01, 0xE3] = .ok (.smsw [] (.reg .ebx), []) := by decide
theorem test_word_lmsw : decode .s32 [0x0F, 0x01, 0xF0] = .ok (.lmsw [] (.reg .eax), []) := by decide
theorem test_word_clts : decode .s32 [0x0F, 0x06, 0x90] = .ok (.clts [], [0x90]) := by decide
theorem test_word_mov_from_dr : decode .s32 [0x0F, 0x21, 0xF8] = .ok (.movFromDr [] 3 7 .eax, []) := by decide
theorem test_word_mov_to_dr : decode .s32 [0x0F, 0x23, 0xFB] = .ok (.movToDr [] 3 7 .ebx, []) := by decide
theorem test_word_mov_from_tr : decode .s32 [0x0F, 0x24, 0xFB] = .ok (.movFromTr [] 3 7 .ebx, []) := by decide
theorem test_word_mov_to_tr : decode .s32 [0x0F, 0x26, 0xF3] = .ok (.movToTr [] 3 6 .ebx, []) := by decide
theorem test_word_int3 : decode .s16 [0xCC] = .ok (.int3 [], []) := by decide
theorem test_word_wrmsr : decode .s32 [0x0F, 0x30] = .ok (.wrmsr [], []) := by decide
theorem test_word_rdtsc : decode .s32 [0x0F, 0x31] = .ok (.rdtsc [], []) := by decide
theorem test_word_rdmsr : decode .s32 [0x0F, 0x32] = .ok (.rdmsr [], []) := by decide
theorem test_word_rdpmc : decode .s32 [0x0F, 0x33] = .ok (.rdpmc [], []) := by decide
theorem test_word_cpuid : decode .s32 [0x0F, 0xA2] = .ok (.cpuid [], []) := by decide
theorem test_word_call_ptr : decode .s16 [0x9A, 0x00, 0x01, 0x34, 0x12] = .ok (.callPtr [] (.ptr16 0x0100 0x1234), []) := by
  decide
theorem test_word_call_mem : decode .s32 [0xFF, 0x1B] = .ok (.callMem [] (.mem32 (.base .ebx .none)), []) := by decide
theorem test_word_iret : decode .s16 [0xCF] = .ok (.iret [], []) := by decide
theorem test_word_wait : decode .s16 [0x9B] = .ok (.wait [], []) := by decide
theorem test_word_esc : decode .s32 [0xD9, 0xD0] = .ok (.esc [] 1 2 (.reg .eax), []) := by decide

/-- A segment override, an address-size byte, a SIB byte with scale 4 and an 8-bit displacement (R201, R204). -/
theorem test_word_sib : decode .s16 [0x64, 0x67, 0x0F, 0x01, 0x44, 0x8B, 0xFC]
    = .ok (.sgdt [.seg .fs, .addrSize] (.mem32 (.sib 2 .ecx .ebx (.d8 0xFC))), []) := by decide

/-- A row of the table as the host numbers it (log 5). -/
theorem test_table_word : decodeTableWord 24 0x0F01E3 = some (.smsw [] (.reg .ebx)) := by decide +kernel
theorem test_table_word_runs :
    after (step (State.reset.withFetchWord 24 0x0F01E3)) (fun t => low16 t.gpr.ebx == 0x0010) = true := by decide +kernel

/-! ### Vectors of 95_test_vectors.md -/

theorem test_v20_lgdt : after (step (poke (prot [0x0F, 0x01, 0x15, 0x00, 0x10, 0x00, 0x00]) 0x1000 [0xFF, 3, 0, 0x20, 1, 0]))
    (fun t => t.gdtr == { base := 0x00012000, limit := 0x03FF } && t.eip == 0x00100007) = true := by decide +kernel
theorem test_v21_lgdt_16 : after (step (poke (real [0x0F, 0x01, 0x16, 0x00, 0x10]) 0x1000 [0xFF, 3, 0, 0x20, 1, 0xFF]))
    (fun t => t.gdtr == { base := 0x00012000, limit := 0x03FF }) = true := by decide +kernel
theorem test_v22_lidt : after (step (poke (prot [0x0F, 0x01, 0x1D, 0x06, 0x10, 0x00, 0x00]) 0x1006 [0xFF, 7, 0, 0x30, 1, 0]))
    (fun t => t.idtr == { base := 0x00013000, limit := 0x07FF }) = true := by decide +kernel
theorem test_v23_sgdt : after (step (prot [0x0F, 0x01, 0x05, 0x00, 0x20, 0x00, 0x00]))
    (fun t => peek t 0x2000 6 == [0xFF, 3, 0, 0x20, 1, 0]) = true := by decide +kernel
theorem test_v24_sidt : after (step (withEbx (prot [0x0F, 0x01, 0x0B]) 0x2010))
    (fun t => peek t 0x2010 6 == [0xFF, 7, 0, 0x30, 1, 0]) = true := by decide +kernel
theorem test_v27_lldt : after (step (withEax (tables [0x0F, 0x00, 0xD0]) 0x0028))
    (fun t => t.ldtr.sel == 0x0028 && t.ldtr.cache.base == 0x00020000 && t.ldtr.cache.limit == 0x00FF) = true := by decide +kernel
theorem test_v28_sldt : after (steps 2 (withEax (tables [0x0F, 0x00, 0xD0, 0x66, 0x0F, 0x00, 0xC1]) 0x0028))
    (fun t => low16 t.gpr.ecx == 0x0028) = true := by decide +kernel
theorem test_v31_ltr : after (step (withEax (tables [0x0F, 0x00, 0xD8]) 0x0030))
    (fun t => t.tr.sel == 0x0030 && t.tr.cache.base == 0x00030000 && peek t 0x12035 1 == [0x8B]) = true := by decide +kernel
theorem test_v31_str : after (step (tables [0x66, 0x0F, 0x00, 0xCA])) (fun t => low16 t.gpr.edx == 0x0038) = true := by
  decide +kernel
theorem test_v32_ltr_busy : after (step (withEax (tables [0x0F, 0x00, 0xD8]) 0x0038))
    (fun t => t.eip == 0x00200000 && peek t 0x7FF0 4 == [0x38, 0, 0, 0]) = true := by decide +kernel
theorem test_v34_mov_from_cr0 : after (step (real [0x0F, 0x20, 0x00])) (fun t => t.gpr.eax == 0x60000010) = true := by
  decide +kernel
theorem test_v35_mov_to_cr0 : after (step (withEax (real [0x0F, 0x22, 0xC0]) 0xFFFFFFFF)) (fun t => t.cr0 == 0xE005003F) = true := by
  decide +kernel
theorem test_v36_mov_to_cr3 : after (step (withEax (prot [0x0F, 0x22, 0xD8]) 0x00123FFF)) (fun t => t.cr3 == 0x00123018) = true := by
  decide +kernel
theorem test_v41_lmsw : after (step (withEax (real [0x0F, 0x01, 0xF0]) 0x0001)) (fun t => t.cr0 == 0x60000011) = true := by
  decide +kernel
theorem test_v42_lmsw_keeps_pe : after (step (withEax { prot [0x0F, 0x01, 0xF0] with cr0 := 0x6000001B } 0))
    (fun t => t.cr0 == 0x60000011) = true := by decide +kernel
theorem test_v44_smsw : after (step (prot [0x66, 0x0F, 0x01, 0xE3])) (fun t => low16 t.gpr.ebx == 0x0011) = true := by decide +kernel
theorem test_v45_clts : after (exec (.clts []) { prot [] with cr0 := 0x8005003B }) (fun t => t.cr0 == 0x80050033) = true := by
  decide +kernel
theorem test_v50_mov_from_dr : after (step (prot [0x0F, 0x21, 0xF8])) (fun t => t.gpr.eax == 0x00000400) = true := by decide +kernel
theorem test_v53_mov_to_dr6 : after (steps 2 (withEax (prot [0x0F, 0x23, 0xF0, 0x0F, 0x21, 0xF3]) 0xFFFFFFFF))
    (fun t => t.gpr.ebx == 0xFFFFEFFF) = true := by decide +kernel
theorem test_v61_tlb_write : after (step (withEbx { prot [0x0F, 0x26, 0xF3] with tr7 := 0x00345010 } 0x00012CC0))
    (fun t => t.tlb.getD 2 .invalid == entry61 && t.tr6 == 0x00012CC0) = true := by decide +kernel
theorem test_v62_tlb_lookup : after (step (withEbx { prot [0x0F, 0x26, 0xF3] with tlb := hit.tlb } 0x000127E1))
    (fun t => t.tr7 == 0x00345010 && t.tr6 == 0x00012CC1) = true := by decide +kernel
theorem test_v64_mov_from_tr : after (step { prot [0x0F, 0x24, 0xFB] with tr7 := 0xFFFFF01C })
    (fun t => t.gpr.ebx == 0xFFFFF01C) = true := by decide +kernel
theorem test_v67_int3 : after (step { poke (real [0xCC]) 0xC [0x00, 0x01, 0x34, 0x12] with eflags := 0x202 })
    (fun t => t.gpr.esp == 0x6FFA && t.eip == 0x0100 && t.segs.cs.sel == 0x1234 && t.segs.cs.cache.base == 0x12340
      && t.eflags == 2 && peek t 0x6FFA 6 == [0x01, 0x7C, 0, 0, 0x02, 0x02]) = true := by decide +kernel
theorem test_v68_int3_gate : after
    (exec (.int3 []) (poke (poke (poke (user []) 0x40004 [0x00, 0x90, 0, 0, 0x10]) 0x13018 [0, 0, 8, 0, 0, 0x8F, 0x20, 0])
      0x12010 [0xFF, 0xFF, 0, 0, 0, 0x93, 0xCF, 0]))
    (fun t => t.eip == 0x00200000 && t.cpl == 0 && peek t 0x8FE8 8 == [0x1A, 0, 0, 0, 0, 0, 0x10, 0]) = true := by decide +kernel
/-- INT3 with TF = 1 leaves a single step (60 R334). -/
theorem test_r334_int3_single_step : after (step { real [0xCC] with eflags := 0x102 }) (fun t => t.pending.singleStep && t.segs.cs.sel == 0)
    = true := by decide +kernel
theorem test_v70_rdmsr : after
    (step (withEcx { prot [0x0F, 0x32] with msr := { State.reset.msr with tsc := 0x0000000123456789 } } 0x10))
    (fun t => t.gpr.edx == 1 && t.gpr.eax == 0x23456789 && t.gpr.ecx == 0x10) = true := by decide +kernel
theorem test_v72_wrmsr : after
    (step { prot [0x0F, 0x30] with gpr := { State.reset.gpr with ecx := 0x0E, edx := 0x11223344, eax := 0x55667788 } })
    (fun t => t.msr.tr12 == 0x1122334455667788) = true := by decide +kernel
theorem test_v75_rdtsc : after (step { prot [0x0F, 0x31] with msr := { State.reset.msr with tsc := 0x00000002FFFFFFF0 } })
    (fun t => t.gpr.edx == 2 && t.gpr.eax == 0xFFFFFFF0) = true := by decide +kernel
theorem test_v79_rdpmc : after (step (withEcx { prot [0x0F, 0x33] with msr := { State.reset.msr with ctr1 := 0xFF00000001 } } 1))
    (fun t => t.gpr.edx == 0xFF && t.gpr.eax == 1) = true := by decide +kernel
theorem test_v81_cpuid : after (step { prot [0x0F, 0xA2] with eflags := 0x00200002 })
    (fun t => t.gpr.eax == 1 && t.gpr.ebx == 0x756E6547 && t.gpr.ecx == 0x6C65746E && t.gpr.edx == 0x49656E69) = true := by
  decide +kernel
theorem test_v85_call : after (step (real [0x9A, 0x00, 0x01, 0x34, 0x12]))
    (fun t => peek t 0x6FFC 4 == [0x05, 0x7C, 0, 0] && t.gpr.esp == 0x6FFC && t.segs.cs.sel == 0x1234
      && t.segs.cs.cache.base == 0x12340 && t.eip == 0x0100) = true := by decide +kernel

/-- The TSS at 0x00030000: EIP 0x00500000, EFLAGS 2, EAX 0xAA, flat segments. -/
def task (s : State) : State :=
  poke (poke (poke s 0x30020 [0, 0, 0x50, 0, 2, 0, 0, 0, 0xAA]) 0x30038 [0, 0x60])
    0x30048 [0, 0, 0, 0, 8, 0, 0, 0, 0x10, 0, 0, 0, 0, 0, 0, 0, 0, 0, 0, 0, 0, 0, 0, 0, 0, 0, 0, 0]

/-- As `tables`, with a flat data segment as entry 2. -/
def tasks (code : List Byte) : State := task (poke (tables code) 0x12010 [0xFF, 0xFF, 0, 0, 0, 0x93, 0xCF, 0])

theorem test_v86_call_task : after (step { tasks [0x9A, 0, 0, 0, 0, 0x30, 0] with dr7 := 0xFF })
    (fun t => t.eip == 0x00500000 && t.tr.sel == 0x30 && peek t 0x30000 2 == [0x38, 0] && t.nt && t.ts && t.readDr7 == 0x4AA
      && peek t 0x12035 1 == [0x8B] && peek t 0x40020 4 == [7, 0, 0x10, 0] && t.gpr.eax == 0xAA) = true := by decide +kernel
/-- 10_state.md R45, R46: the base is sixteen times the selector and the limit 64 KB, from a cache of Protected Mode with G = 1. -/
theorem test_r46_load : after (step { real [0x9A, 0x00, 0x01, 0x34, 0x12] with
      segs := { (real []).segs with cs := { sel := 0, cache := code32 0 } } })
    (fun t => t.segs.cs == { sel := 0x1234, cache := { base := 0x12340, limit := 0xFFFF, attr := 0x49B } }) = true := by decide +kernel
theorem test_v88_call_mem : after (step (withEbx (poke (tasks [0xFF, 0x1B]) 0x2000 [0, 0, 0, 0, 0x30, 0]) 0x2000))
    (fun t => t.eip == 0x00500000 && t.tr.sel == 0x30) = true := by decide +kernel
theorem test_v89_iret : after
    (step (poke { real [0xCF] with gpr := { State.reset.gpr with esp := 0x6FFA } } 0x6FFA [0x01, 0x7C, 0, 0, 0x02, 0x02]))
    (fun t => t.eip == 0x7C01 && t.segs.cs.sel == 0 && t.eflags == 0x202 && t.gpr.esp == 0x7000) = true := by decide +kernel
theorem test_v90_iret_task : after (steps 2 (poke (tasks [0x9A, 0, 0, 0, 0, 0x30, 0]) 0x500000 [0xCF]))
    (fun t => t.eip == 0x00100007 && t.tr.sel == 0x38 && t.ts && !t.nt && peek t 0x12035 1 == [0x89]
      && peek t 0x30020 8 == [1, 0, 0x50, 0, 2, 0, 0, 0]) = true := by decide +kernel
theorem test_v93_esc : after (step (poke { real [0xD9, 0xD0] with cr0 := 0x60000014 } 0x1C [0x00, 0x01, 0x34, 0x12]))
    (fun t => t.segs.cs.sel == 0x1234 && t.eip == 0x0100 && peek t 0x6FFA 2 == [0x00, 0x7C]) = true := by decide +kernel
theorem test_v96_wait : after (step { prot [0x9B] with cr0 := 0x60000019 }) (fun t => t.eip == 0x00100001) = true := by
  decide +kernel
theorem test_v97_wait_stops : after (step { prot [0x9B] with env := { Env.inactive with numericError := true } })
    (fun t => t.eip == 0x00100000 && t.activity == .waiting) = true := by decide +kernel
theorem test_v101_gp : after
    (exec (.movToCr [] 3 0 .ecx) (withEcx { tables [] with eip := 0x00100009, eflags := 0x00000202 } 0x80000010))
    (fun t => peek t 0x7FF0 16 == [0, 0, 0, 0, 9, 0, 0x10, 0, 8, 0, 0, 0, 2, 2, 1, 0] && t.gpr.esp == 0x7FF0
      && t.eip == 0x00200000 && t.eflags == 2 && t.cpl == 0) = true := by decide +kernel
theorem test_v102_interrupt : after
    (step (poke (poke (poke { user [] with
        eip := 0x400000, eflags := 0x202, env := { Env.inactive with intr := some 0x20 } }
      0x40004 [0x00, 0x90, 0, 0, 0x10]) 0x13100 [0, 0x10, 8, 0, 0, 0x8E, 0x20, 0]) 0x12010 [0xFF, 0xFF, 0, 0, 0, 0x93, 0xCF, 0]))
    (fun t => peek t 0x8FEC 20 == [0, 0, 0x40, 0, 0x1B, 0, 0, 0, 2, 2, 0, 0, 0, 0xF0, 0, 0, 0x23, 0, 0, 0] && t.cpl == 0
      && t.segs.cs.sel == 8 && t.eip == 0x201000 && t.eflags == 2) = true := by decide +kernel
theorem test_v106_single_step : after (steps 2 (poke { real [0x0F, 0x01, 0xE0] with eflags := 0x102 } 4 [0x50, 0, 0, 0x20]))
    (fun t => low16 t.gpr.eax == 0x10 && t.dr6 == 0x4000 && peek t 0x6FFA 6 == [3, 0x7C, 0, 0, 2, 1] && t.segs.cs.sel == 0x2000)
    = true := by decide +kernel
theorem test_v107_data_breakpoint : after
    (step (withEbx { prot [0x0F, 0x01, 0x23] with dr0 := 0x1000, dr7 := 0x000D0002 } 0x1003))
    (fun t => t.pending.hits == 1 && t.eip == 0x00100003) = true := by decide +kernel
theorem test_v18_tlb : (match translate .sysRead 0x00012ABC hit with
    | .ok (pa, _) => pa == 0x00345ABC
    | .error _ => false) = true := by decide +kernel
theorem test_v120_reset : State.reset.readDr6 = 0xFFFF0FF0 ∧ State.reset.readDr7 = 0x00000400 ∧ State.reset.gpr.edx = 0x52C := by
  decide

/-! ### Each statement's hypotheses can be met

One theorem for a statement with hypotheses: concrete states and operands, at the edges of their ranges where a clause has
a range. -/

/-- A computation that answers, and of whose value and state `f` holds. -/
def yields {α : Type} (r : Except Stop (α × State)) (f : α → State → Bool) : Bool :=
  match r with
  | .ok (a, t) => f a t
  | .error _ => false

theorem of_yields {α : Type} {r : Except Stop (α × State)} {f : α → State → Bool} (h : yields r f = true) :
    ∃ a t, r = .ok (a, t) ∧ f a t = true := by
  cases r with
  | ok x => exact ⟨x.1, x.2, rfl, h⟩
  | error e => cases h

/-- A part whose memory map has a device at 0x2000 to 0x2FFF and a read-only region at 0x3000 to 0x3FFF. -/
def mapped : Part :=
  { Part.default with memMap := [{ first := 0x2000, last := 0x2FFF, kind := .device }, { first := 0x3000, last := 0x3FFF, kind := .rom }] }

/-- A part with none of the options of `FEATURES`. -/
def bare : Part :=
  { Part.default with features := ⟨false, false, false, false, false, false, false, false, false, false, false, false, false,
      false, false, false, false, false, false, false⟩ }

theorem witness_ResetIsLegal : Part.default.resetState = .default ∧ Memory.wf Part.default.memInit = true
    ∧ mapped.resetState = .default ∧ mapped.signature = 0x0000052C := by decide
theorem witness_DecodeEncodeAgree :
    Instr.wellFormed .s16 (.callMem [.seg .fs, .opSize] (.mem16 (.base .bxsi (.d8 0xFF)))) = true := by decide
theorem witness_DecodeIsExact : ∃ i rest, decode .s16 [0x0F, 0x22, 0xC0, 0x90] = .ok (i, rest) :=
  ⟨.movToCr [] 3 0 .eax, [0x90], by decide⟩
theorem witness_EncodingsArePrefixFree : Instr.wellFormed .s32 (.movToCr [] 3 0 .eax) = true
    ∧ 0 < (encode (.movToCr [] 3 0 .eax)).length ∧ 2 < (encode (.movToCr [] 3 0 .eax)).length := by decide
theorem witness_InvalidEncodings : field (0xF0 : Byte) 3 3 = 6 ∧ field (0x38 : Byte) 3 3 = 7 ∧ field (0xE8 : Byte) 3 3 = 5
    ∧ (field (0xFF : Byte) 3 3 = 7 ∧ field (0xFF : Byte) 6 2 = 3) ∧ (real [0x0F, 0x25]).calm
    ∧ fetchInstr (real [0x0F, 0x25]).beginNext.afterInstrHits = .error (.exc .ud) := by
  refine ⟨by decide, by decide, by decide, by decide, ?_, of_stops (by decide +kernel)⟩
  unfold State.calm
  decide +kernel
/-- Each invalid encoding alone, and after prefix bytes that make it longer than 15 bytes. -/
theorem witness_InvalidEncodings_fetch : ∀ op : List Byte, op ∈ [[0x0F, 0x00, 0xF0], [0x0F, 0x01, 0xE8], [0x0F, 0x01, 0xFF],
      [0x0F, 0x25], [0x0F, 0x27]] → ∀ p : List Prefix, p ∈ [[], .lock :: List.replicate 20 .opSize] →
    let bs := p.map Prefix.byte ++ op
    let s := real bs
    s.paging = false ∧ s.codeInLimit bs.length = true ∧ s.deviceAt (addrsFrom s.fetchAddr bs.length) = false
      ∧ s.bytesAt (addrsFrom s.fetchAddr bs.length) = bs := by
  intro op hop p hp
  fin_cases hop <;> fin_cases hp <;> decide +kernel
theorem witness_StepRunsDecoded : (real [0x0F, 0x06]).calm
    ∧ ∃ i t, fetchInstr (real [0x0F, 0x06]).beginNext.afterInstrHits = .ok (i, t) := by
  refine ⟨?_, of_answers (by decide +kernel)⟩
  unfold State.calm
  decide +kernel
theorem witness_FetchReadsInstruction_flat : (real [0x0F, 0x06]).paging = false
    ∧ Instr.wellFormed (real [0x0F, 0x06]).codeSize (.clts []) = true
    ∧ (real [0x0F, 0x06]).codeInLimit (Instr.clts []).size = true
    ∧ (real [0x0F, 0x06]).deviceAt (addrsFrom (real [0x0F, 0x06]).fetchAddr (Instr.clts []).size) = false
    ∧ (real [0x0F, 0x06]).bytesAt (addrsFrom (real [0x0F, 0x06]).fetchAddr (Instr.clts []).size) = encode (.clts []) := by
  decide +kernel
theorem witness_FetchReadsInstruction_paged : Memory.wf (poke { hit with eip := 0x12000 } 0x345000 [0x0F, 0x06]).mem = true
    ∧ (poke { hit with eip := 0x12000 } 0x345000 [0x0F, 0x06]).paging = true
    ∧ ∃ i t, fetchInstr (poke { hit with eip := 0x12000 } 0x345000 [0x0F, 0x06]) = .ok (i, t) :=
  ⟨by decide +kernel, by decide +kernel, of_answers (by decide +kernel)⟩
/-- Instructions of 16 to 26 bytes, with a LOCK byte first, last and not at all, two whose form is invalid, and one that raises #NM. -/
theorem witness_FetchReadsInstruction_overlong : ∀ i : Instr,
    i ∈ [.clts (List.replicate 14 .opSize), .clts (.lock :: List.replicate 20 .opSize), .sldt (List.replicate 13 .opSize) (.reg .eax),
      .clts (List.replicate 23 .opSize ++ [.lock]), .sldt (List.replicate 22 .opSize) (.reg .eax), .wait (List.replicate 15 .opSize)] →
    let s := { real (encode i) with cr0 := 0x6000001A }
    s.paging = false ∧ i.operandsFit s.codeSize = true ∧ 15 < i.size ∧ s.codeInLimit i.size = true
      ∧ s.deviceAt (addrsFrom s.fetchAddr i.size) = false ∧ s.bytesAt (addrsFrom s.fetchAddr i.size) = encode i
      ∧ fetchInstr s = .error (.exc (if .lock ∈ i.prefixes ∨ s.invalidForm i = true then .ud
        else if s.unavailable i = true then .nm else .gp 0)) := by
  intro i hi
  fin_cases hi <;> exact ⟨by decide +kernel, by decide +kernel, by decide, by decide +kernel, by decide +kernel,
    by decide +kernel, of_stops (by decide +kernel)⟩
theorem witness_EventsBetweenInstructions :
    (∀ q : Pending, q ∈ [{ Pending.none with singleStep := true }, { Pending.none with taskSwitch := true },
        { Pending.none with hits := 9 }] → ∀ s : State, s = { prot [] with pending := q } →
      s.env.reset = false ∧ s.activity ≠ .shutdown ∧ s.env.machineCheck = none ∧ s.pending.raises = true)
    ∧ (∀ s : State, s = { prot [] with env := { Env.inactive with nmi := true } } → s.env.reset = false
        ∧ s.activity ≠ .shutdown ∧ s.env.machineCheck = none ∧ s.pending.raises = false ∧ s.env.nmi = true ∧ s.nmiBlocked = false)
    ∧ (∀ s : State, s = { prot [] with env := { Env.inactive with nmi := true, intr := some 0xFF }, nmiBlocked := true, eflags := 0x202 } →
        s.env.reset = false ∧ s.activity ≠ .shutdown ∧ s.env.machineCheck = none ∧ s.pending.raises = false
        ∧ s.nmiBlocked = true ∧ s.env.intr = some 0xFF ∧ bit s.eflags 9 = true)
    ∧ ∀ x : Activity, x ∈ [.waiting, .running] → ∀ v : Option Byte, v ∈ [some 0, none] →
        ∀ s : State, s = { prot [] with env := { Env.inactive with intr := v }, activity := x, eflags := if v.isSome then 2 else 0x202 } →
        s.env.reset = false ∧ s.activity ≠ .shutdown ∧ s.env.machineCheck = none ∧ s.pending.raises = false
        ∧ s.env.nmi = false ∧ (s.env.intr = none ∨ bit s.eflags 9 = false) ∧ s.activity = x := by
  refine ⟨?_, ?_, ?_, ?_⟩
  · intro q hq s hs
    fin_cases hq <;> subst hs <;> decide +kernel
  · rintro s rfl
    decide +kernel
  · rintro s rfl
    decide +kernel
  · intro x hx v hv s hs
    fin_cases hx <;> fin_cases hv <;> subst hs <;> decide +kernel
theorem witness_EventsBetweenInstructions_check : ∀ c : Word32, c ∈ [0, 0x40] →
    let s := { prot [] with cr4 := c, env := { Env.inactive with machineCheck := some { addr := 5, kind := 6 } } }
    s.env.reset = false ∧ s.activity ≠ .shutdown ∧ s.env.machineCheck = some { addr := 5, kind := 6 }
      ∧ (bit s.cr4 6 = false ∨ bit s.cr4 6 = true) := by
  intro c hc
  fin_cases hc <;> decide +kernel
theorem witness_ShutdownRules :
    ({ prot [] with idtr := { base := 0, limit := 14 } }.pe = true ∧ (14 : Word16).toNat < (1 : Byte).toNat * 8 + 7)
    ∧ ({ prot [] with idtr := { base := 0, limit := 46 } }.idtr.limit.toNat < Exn.ud.vector.toNat * 8 + 7 ∧ (46 : Word16).toNat < 71)
    ∧ ({ real [] with idtr := { base := 0, limit := 6 } }.pe = false ∧ (6 : Word16).toNat < Exn.ud.vector.toNat * 4 + 3
      ∧ (6 : Word16).toNat < 35)
    ∧ ({ real [] with activity := .shutdown }.env.reset = false ∧ { real [] with activity := .shutdown }.nmiReady = false)
    ∧ (∀ s : State, s = { real [] with activity := .shutdown, env := { Env.inactive with nmi := true } } →
        s.activity = .shutdown ∧ s.env.reset = false ∧ s.env.nmi = true ∧ s.nmiBlocked = false)
    ∧ { real [] with env := { Env.inactive with reset := true } }.env.reset = true := by
  refine ⟨by decide +kernel, by decide +kernel, by decide +kernel, by decide +kernel, ?_, by decide +kernel⟩
  rintro s rfl
  decide +kernel

/-- Gates of vector 3: a code segment's type, a trap gate of DPL 0 at level 3, one that is not present. -/
theorem witness_ShutdownRules_gates : ∀ b : Byte, b ∈ [0x9B, 0x8F, 0x6F] →
    let s := poke (user []) 0x13018 [0, 0, 8, 0, 0, b, 0x20, 0]
    let g := s.gateAt (s.idtr.base + zext32 (3 : Byte) * 8)
    s.pe = true ∧ (3 : Byte).toNat * 8 + 7 ≤ s.idtr.limit.toNat ∧ s.paging = false
      ∧ s.deviceAt (addrsFrom (s.idtr.base + zext32 (3 : Byte) * 8) 8) = false
      ∧ if b = 0x9B then ¬ g.access &&& 0x1F ∈ [(5 : Byte), 6, 7, 0xE, 0xF] else
        g.access &&& 0x1F ∈ [(5 : Byte), 6, 7, 0xE, 0xF] ∧ if b = 0x8F then field g.access 5 2 < s.cpl
          else s.cpl ≤ field g.access 5 2 ∧ bit g.access 7 = false := by
  intro b hb
  fin_cases hb <;> decide +kernel

/-- #UD whose gate is bad, and a page fault whose gate is. -/
theorem witness_ShutdownRules_chain : ∀ e : Exn, e ∈ [.ud, .gp 0, .pf 5 0] → e.faultClass ≠ .double
    ∧ ∃ c, deliver (e.event ((prot []).raised e)) ((prot []).raised e) = .error (.exc (.gp c)) := by
  intro e he
  fin_cases he
  · exact ⟨by decide, 50, of_stops (by decide +kernel)⟩
  · exact ⟨by decide, 106, of_stops (by decide +kernel)⟩
  · exact ⟨by decide, 114, of_stops (by decide +kernel)⟩
theorem witness_StepKeepsCanonicalMemory : Memory.wf (prot [0x0F, 0x01, 0x05, 0, 0x20]).mem = true
    ∧ ∃ t, step (prot [0x0F, 0x01, 0x05, 0, 0x20]) = .next t :=
  ⟨by decide +kernel, of_after (f := fun _ => true) (by decide +kernel)⟩
theorem witness_StepKeepsFixedBits : (withEax (real [0x0F, 0x22, 0xC0]) 0xFFFFFFFF).fixedBits
    ∧ ∃ t, step (withEax (real [0x0F, 0x22, 0xC0]) 0xFFFFFFFF) = .next t := by
  refine ⟨?_, of_after (f := fun _ => true) (by decide +kernel)⟩
  unfold State.fixedBits
  decide +kernel
theorem witness_StepKeepsFixedBits_part : (State.resetOf Part.default).fixedBits ∧ (State.resetOf Part.default).legalMode := by
  unfold State.fixedBits State.legalMode
  decide +kernel
theorem witness_StepKeepsLegalMode : (withEax (real [0x0F, 0x22, 0xC0]) 0xFFFFFFFF).legalMode
    ∧ ∃ t, step (withEax (real [0x0F, 0x22, 0xC0]) 0xFFFFFFFF) = .next t := by
  refine ⟨?_, of_after (f := fun _ => true) (by decide +kernel)⟩
  unfold State.legalMode
  decide +kernel
theorem witness_StepKeepsTlbSizeAndPart : (withEax (prot [0x0F, 0x22, 0xD8]) 0).tlb.length = 32
    ∧ ∃ t, step (withEax (prot [0x0F, 0x22, 0xD8]) 0) = .next t :=
  ⟨by decide +kernel, of_after (f := fun _ => true) (by decide +kernel)⟩

/-- A step with flags in DR6 that takes a single-step trap's cause but does not write DR6 itself. -/
theorem witness_DebugStatusOnlySet : ∃ s t : State, s.dr6 = 0xE00F ∧ s.env.reset = false ∧ step s = .next t
    ∧ ∀ (p : List Prefix) (mod : BitVec 2) (n : BitVec 3) (r : Gpr) (u : State),
      fetchInstr s.fetchState = .ok (.movToDr p mod n r, u) → debugAlias n ≠ 6 := by
  obtain ⟨t, ht⟩ := of_after (o := step { prot [0x0F, 0x23, 0xF8] with dr6 := 0xE00F }) (f := fun _ => true) (by decide +kernel)
  refine ⟨{ prot [0x0F, 0x23, 0xF8] with dr6 := 0xE00F }, t, rfl, by decide +kernel, ht, fun p mod n r u h => ?_⟩
  have hf : yields (fetchInstr (State.fetchState { prot [0x0F, 0x23, 0xF8] with dr6 := 0xE00F }))
    (fun i _ => i == .movToDr [] 3 7 .eax) = true := by decide +kernel
  rw [h] at hf
  have hi := beq_iff_eq.mp (show (Instr.movToDr p mod n r == .movToDr [] 3 7 .eax) = true from hf)
  cases hi
  decide
theorem witness_TaskSwitchedClearedOnlyBy : ∃ s t : State, s.env.reset = false ∧ s.ts = true ∧ step s = .next t
    ∧ ∀ (i : Instr) (u : State), fetchInstr s.fetchState = .ok (i, u) →
      (∀ p, i ≠ .clts p) ∧ (∀ p o, i ≠ .lmsw p o) ∧ ∀ p mod r, i ≠ .movToCr p mod 0 r := by
  obtain ⟨t, ht⟩ := of_after (o := step { prot [0x9B] with cr0 := 0x60000019 }) (f := fun _ => true) (by decide +kernel)
  refine ⟨{ prot [0x9B] with cr0 := 0x60000019 }, t, by decide +kernel, by decide +kernel, ht, fun i u h => ?_⟩
  have hf : yields (fetchInstr (State.fetchState { prot [0x9B] with cr0 := 0x60000019 })) (fun i _ => i == .wait []) = true := by
    decide +kernel
  rw [h] at hf
  cases beq_iff_eq.mp (show (i == .wait []) = true from hf)
  exact ⟨fun _ => nofun, fun _ _ => nofun, fun _ _ _ => nofun⟩
theorem witness_UserCodeKeepsSystemRegisters : (user []).cpl ≠ 0 ∧ ∃ t, exec (.wait []) (user []) = .next t :=
  ⟨by decide +kernel, of_after (f := fun _ => true) (by decide +kernel)⟩
theorem witness_OperandAccess : (real []).segAllows .ds false 0xFFFF 2 = false ∧ (real []).segAllows .ds false 0xFFFE 2 = true
    ∧ (real []).paging = false ∧ Memory.wf hit.mem = true ∧ hit.paging = true
    ∧ ∃ pas t, operandBytes .ds false 0x12FFC 4 hit = .ok (pas, t) :=
  ⟨by decide +kernel, by decide +kernel, by decide +kernel, by decide +kernel, by decide +kernel, of_answers (by decide +kernel)⟩
/-- A segment that expands down from 0xFFFF, one with a limit in 4 KB units, one that is not present, and a device. -/
theorem witness_OperandAccess_protected : ∀ c : SegCache, c ∈ [{ base := 0, limit := 0xFFF, attr := 0x497 }, { base := 0, limit := 1, attr := 0xC93 },
      { base := 0, limit := 0xFFFF, attr := 0x013 }] →
    let s := { prot [] with part := mapped, segs := flat (code32 0) c 0x08 0x10 }
    s.prot = true ∧ s.paging = false
      ∧ (s.segAllows .ds true 0x1FFC 4 = true → s.deviceAt (addrsFrom ((s.seg .ds).cache.base + 0x1FFC) 4) = false)
      ∧ (bit c.attr 7 = true → bit c.attr 2 = true → s.segAllows .ds true 0xFFF 1 = false ∧ s.segAllows .ds true 0x1000 1 = true
        ∧ s.segAllows .ds true 0xFFFFFFFC 4 = true ∧ s.deviceAt (addrsFrom ((s.seg .ds).cache.base + 0x2FFC) 8) = true)
      ∧ (bit c.attr 11 = true → s.segAllows .ds true 0x1FFC 4 = true ∧ s.segAllows .ds true 0x1FFD 4 = false)
      ∧ (bit c.attr 7 = false → s.segAllows .ds false 0 1 = false) := by
  intro c hc
  fin_cases hc <;> decide +kernel
theorem witness_PageTranslation_hit : hit.paging = true ∧ hit.tlbHits (field (0x12FFF : Word32) 12 20) = [0]
    ∧ hit.pageAllows .sysWrite false true = true ∧ entry61.d = true
    ∧ hit.pageAllows { write := false, user := true } false true = false := by decide +kernel
theorem witness_PageTranslation_miss : paged.paging = true ∧ paged.tlbHits (field (0x00401234 : Word32) 12 20) = []
    ∧ bit (paged.phys32 0x00100000) 0 = false ∧ bit (paged.phys32 0x00100004) 0 = true
    ∧ paged.pse = false ∧ bit (paged.phys32 0x00101000) 0 = false ∧ bit (paged.phys32 0x00101004) 0 = true
    ∧ Memory.wf paged.mem = true ∧ paged.pageAllows { write := true, user := true } true true = true := by decide +kernel
/-- A write through an entry whose dirty attribute is 0. -/
theorem witness_PageTranslation_dirty :
    let e : TlbEntry := { lin := 0x401, v := true, d := false, u := true, w := true, phys := 0x345 }
    let s := { paged with tlb := State.reset.tlb.set 1 e }
    s.tlbHits (field (0x00401000 : Word32) 12 20) = [0] ∧ s.tlbEntry 0 0x401 = e ∧ s.pageAllows .sysWrite e.u e.w = true
      ∧ s.tlb.length = 32 ∧ Memory.wf s.mem = true ∧ s.pse = false ∧ bit (s.phys32 0x00100004) 0 = true
      ∧ bit (s.phys32 0x00101004) 0 = true ∧ s.deviceAt (addrsFrom 0x00100004 4 ++ addrsFrom 0x00101004 4) = false
      ∧ s.pageAllows .sysWrite true true = true := by decide +kernel

/-- The same through a directory entry that maps 4 MB. -/
theorem witness_PageTranslation_dirty_large :
    let e : TlbEntry := { lin := 0x401, v := true, d := false, u := true, w := true, phys := 0x345 }
    let s := { poke paged 0x00100004 [0x87, 0, 0x80, 0xFF] with cr4 := 0x10, tlb := State.reset.tlb.set 1 e }
    let pde := s.phys32 0x00100004
    s.tlbHits (field (0x00401000 : Word32) 12 20) = [0] ∧ s.tlbEntry 0 0x401 = e ∧ s.pageAllows .sysWrite e.u e.w = true
      ∧ s.tlb.length = 32 ∧ Memory.wf s.mem = true ∧ s.deviceAt (addrsFrom 0x00100004 4) = false ∧ bit pde 0 = true
      ∧ s.pse = true ∧ bit pde 7 = true ∧ field pde 12 10 = 0 ∧ s.pageAllows .sysWrite (bit pde 2) (bit pde 1) = true := by
  decide +kernel

/-- Directory entries that map 4 MB: with a reserved bit, without rights for level 3, and with them. -/
theorem witness_PageTranslation_large : ∀ b : List Byte, b ∈ [[0x87, 0x10, 0, 0], [0x81, 0, 0, 0], [0x87, 0, 0x80, 0xFF]] →
    let s := { poke paged 0x00100000 b with cr4 := 0x10 }
    let pde := s.phys32 0x00100000
    s.tlbHits 5 = [] ∧ bit pde 0 = true ∧ s.pse = true ∧ bit pde 7 = true ∧ Memory.wf s.mem = true
      ∧ (b = [0x87, 0x10, 0, 0] → field pde 12 10 ≠ 0)
      ∧ (b = [0x81, 0, 0, 0] → field pde 12 10 = 0 ∧ s.pageAllows { write := true, user := true } (bit pde 2) (bit pde 1) = false)
      ∧ (b = [0x87, 0, 0x80, 0xFF] → field pde 12 10 = 0
        ∧ s.pageAllows { write := true, user := true } (bit pde 2) (bit pde 1) = true) := by
  intro b hb
  fin_cases hb <;> decide +kernel
theorem witness_AlignmentChecked : ∃ s t : State, ∃ pas : List Word32, s.part.acRule = .natural ∧ bit s.cr0 18 = true
    ∧ bit s.eflags 18 = true ∧ s.pe = true ∧ s.cpl = 3 ∧ (s.linear .ds 0x1002).toNat % 4 ≠ 0 ∧ (s.linear .ds 0x1002).toNat % 2 = 0
    ∧ operandBytes .ds false 0x1002 4 s = .ok (pas, t) ∧ ∃ u, operandBytes .ds false 0x1002 2 s = .ok (pas.take 2, u) := by
  obtain ⟨pas, t, h, h2⟩ := of_yields
    (r := operandBytes .ds false 0x1002 4 { user [] with cr0 := 0x60040011, eflags := 0x00040002 })
    (f := fun pas _ => yields (operandBytes .ds false 0x1002 2 { user [] with cr0 := 0x60040011, eflags := 0x00040002 })
      fun q _ => q == pas.take 2) (by decide +kernel)
  obtain ⟨q, u, hu, hq⟩ := of_yields h2
  exact ⟨_, t, pas, by decide +kernel, by decide +kernel, by decide +kernel, by decide +kernel, by decide +kernel,
    by decide +kernel, by decide +kernel, h, u, by rw [hu, beq_iff_eq.mp hq]⟩
theorem witness_AlignmentChecked_write : ∃ s t : State, ∃ pas : List Word32, s.part.acRule = .natural ∧ bit s.cr0 18 = true
    ∧ bit s.eflags 18 = true ∧ s.pe = true ∧ s.cpl = 3 ∧ (s.linear .ds 0x1001).toNat % 2 ≠ 0
    ∧ operandBytes .ds true 0x1001 2 s = .ok (pas, t) := by
  obtain ⟨pas, t, h⟩ := of_answers
    (r := operandBytes .ds true 0x1001 2 { user [] with cr0 := 0x60040011, eflags := 0x00040002 }) (by decide +kernel)
  exact ⟨_, t, pas, by decide +kernel, by decide +kernel, by decide +kernel, by decide +kernel, by decide +kernel,
    by decide +kernel, h⟩
theorem witness_BreakpointOverlap : (3 : BitVec 2) ≠ 2 ∧ (0 : BitVec 2) ≠ 2 ∧ 0 < 1 ∧ 1 ≤ 8 ∧ 0 < 8 ∧ 8 ≤ 8 := by decide
/-- Breakpoint 3, by each of its R/W fields, and the instruction breakpoint of R331 with and without RF. -/
theorem witness_BreakpointOverlap_fields : ∀ f : BitVec 2, f ∈ [0, 1, 2, 3] →
    let s := { prot [] with cr4 := 8, dr3 := 0x00100000, dr7 := zext32 f <<< 28 ||| 0x80 }
    field s.dr7 (16 + 4 * 3) 2 = f ∧ field s.dr7 (18 + 4 * 3) 2 = 0 ∧ s.de = true ∧ bit s.dr7 7 = true
      ∧ (f = 0 → s.rf = false ∧ s.instrHits ≠ 0) ∧ { s with eflags := 0x10002 }.rf = true := by
  intro f hf
  fin_cases hf <;> decide +kernel
theorem witness_DescriptorFetched : (selTi 0x0400 = false ∧ (tables []).gdtr.limit.toNat < 8 * (selIndex 0x0400).toNat + 7)
    ∧ ((tables []).paging = false ∧ 8 * (selIndex 0x03F8).toNat + 7 ≤ (tables []).gdtr.limit.toNat)
    ∧ (∀ s : State, s = { tables [] with ldtr := { sel := 0x28, cache := { base := 0x20000, limit := 0xFF, attr := 0x082 } } } →
        selTi 0x00FC = true ∧ s.paging = false ∧ s.ldtr.cache.present = true
        ∧ 8 * (selIndex 0x00FC).toNat + 7 ≤ s.ldtr.cache.byteLimit) := by
  refine ⟨by decide +kernel, by decide +kernel, ?_⟩
  rintro s rfl
  decide +kernel
theorem witness_DescriptorFetched_outside :
    (selTi 0x0104 = true ∧ (tables []).ldtr.cache.byteLimit = 0xFFFF
      ∧ { tables [] with ldtr := { sel := 0x28, cache := { base := 0x20000, limit := 0xFF, attr := 0x082 } } }.ldtr.cache.byteLimit
        < 8 * (selIndex 0x0104).toNat + 7)
    ∧ ({ tables [] with ldtr := .null 0 }.ldtr.cache.present = false)
    ∧ (bit (0xC92 : BitVec 12) 0 = false ∧ Memory.wf (tables []).mem = true ∧ (tables []).paging = false
      ∧ (tables []).ram [(tables []).descriptorAddr 0x10 + 5] = true) := by decide +kernel
theorem witness_StackSlots : ∀ s : State, s ∈ [real [], prot []] → Memory.wf s.mem = true ∧ ∀ z : OpSize,
    (∃ pas t, operandBytes .ss true (s.pushOffset z) (slotBytes z) s = .ok (pas, t))
    ∧ s.misaligned (s.linear .ss (s.pushOffset z)) (slotBytes z) = false
    ∧ (∃ pas t, operandBytes .ss false s.stackTop (slotBytes z) s = .ok (pas, t))
    ∧ s.misaligned (s.linear .ss s.stackTop) (slotBytes z) = false := by
  intro s hs
  fin_cases hs <;> refine ⟨by decide +kernel, fun z => ?_⟩ <;> cases z <;>
    exact ⟨of_answers (by decide +kernel), by decide +kernel, of_answers (by decide +kernel), by decide +kernel⟩
theorem witness_TableStored : ∀ s : State, s ∈ [real [], prot []] → Memory.wf s.mem = true
    ∧ ∃ pas t, imageBytes [] (.mem32 (.direct 0xFFFA)) true s = .ok (pas, t) := by
  intro s hs
  fin_cases hs <;> exact ⟨by decide +kernel, of_answers (by decide +kernel)⟩
theorem witness_TableLoaded : ∀ s : State, s ∈ [real [], prot []] → s.cpl = 0 ∧ Memory.wf s.mem = true
    ∧ ∃ pas t, imageBytes [] (.mem32 (.direct 0x1000)) false s = .ok (pas, t) ∧ t.bytesAt pas = [0, 0, 0, 0, 0, 0] := by
  intro s hs
  fin_cases hs <;> refine ⟨by decide +kernel, by decide +kernel, ?_⟩
  · obtain ⟨pas, t, h, hb⟩ := of_yields (r := imageBytes [] (.mem32 (.direct 0x1000)) false (real []))
      (f := fun pas t => t.bytesAt pas == [0, 0, 0, 0, 0, 0]) (by decide +kernel)
    exact ⟨pas, t, h, beq_iff_eq.mp hb⟩
  · obtain ⟨pas, t, h, hb⟩ := of_yields (r := imageBytes [] (.mem32 (.direct 0x1000)) false (prot []))
      (f := fun pas t => t.bytesAt pas == [0, 0, 0, 0, 0, 0]) (by decide +kernel)
    exact ⟨pas, t, h, beq_iff_eq.mp hb⟩
/-- An image whose base wraps to offset 0 of the 16-bit address. -/
theorem witness_TableLoaded_flat : ∀ x : Word16, x ∈ [0x1000, 0xFFFE] →
    let s := real []
    let next : Word32 := zext32 (low16 (s.offset (.mem16 (.direct x)) + 2))
    s.paging = false ∧ s.segAllows .ds true (s.offset (.mem16 (.direct x))) 2 = true ∧ s.segAllows .ds true next 4 = true
      ∧ s.deviceAt (addrsFrom (zext32 x) 2 ++ addrsFrom next 4) = false ∧ s.misaligned (zext32 x) 6 = false
      ∧ (x = 0xFFFE → next = 0) := by
  intro x hx
  fin_cases hx <;> decide +kernel
theorem witness_TableRoundTrip : (prot []).cpl = 0 ∧ (prot []).paging = false ∧ Memory.wf (prot []).mem = true
    ∧ (prot []).operandSize [] = .s32
    ∧ ∃ pas t, imageBytes [] (.mem32 (.direct 0x2000)) true (prot []) = .ok (pas, t) ∧ (prot []).ram pas = true :=
  ⟨by decide +kernel, by decide +kernel, by decide +kernel, by decide +kernel, of_yields (by decide +kernel)⟩
theorem witness_WordStoredInRegister : (prot []).prot = true ∧ Plain [] ∧ Plain [.opSize]
    ∧ (prot []).operandSize [] = .s32 ∧ (prot []).operandSize [.opSize] = .s16 ∧ (real []).operandSize [] = .s16 := by
  decide +kernel
theorem witness_WordStoredInMemory : ∀ s : State, s ∈ [real [], prot []] → Memory.wf s.mem = true
    ∧ (∃ pas t, operandBytes .ds true 0xFFFE 2 s = .ok (pas, t)) ∧ s.misaligned (s.linear .ds 0xFFFE) 2 = false
    ∧ operandSegment [] (.mem32 (.direct 0xFFFE)) = .ds ∧ s.offset (.mem32 (.direct 0xFFFE)) = 0xFFFE := by
  intro s hs
  fin_cases hs <;>
    exact ⟨by decide +kernel, of_answers (by decide +kernel), by decide +kernel, by decide +kernel, by decide +kernel⟩

/-- Selectors in EAX at level 0: null with RPL 3, of the LDT, of entry 127 (empty), of a descriptor that is not present. -/
theorem witness_LldtLoads : (tables []).prot = true ∧ (tables []).cpl = 0
    ∧ WordSource [] (.reg .eax) (tables []) 0 (tables []) ∧ field (0x0003 : Word16) 2 14 = 0 ∧ bit (0x0004 : Word16) 2 = true
    ∧ (∃ d u, readDescriptor 0x03F8 (.gp (selCode 0x03F8)) (tables []) = .ok (d, u)
        ∧ (field (0x03F8 : Word16) 2 14 != 0 && !(!bit d.attr 4 && field d.attr 0 4 == 2)) = true)
    ∧ (∃ d u, readDescriptor 0x0020 (.gp (selCode 0x0020)) (poke (tables []) 0x12025 [0x02]) = .ok (d, u)
        ∧ (!bit d.attr 4 && field d.attr 0 4 == 2 && !bit d.attr 7) = true)
    ∧ ∃ d u, readDescriptor 0x0028 (.gp (selCode 0x0028)) (tables []) = .ok (d, u)
        ∧ (!bit d.attr 4 && field d.attr 0 4 == 2 && bit d.attr 7) = true :=
  ⟨by decide +kernel, by decide +kernel, ⟨by decide +kernel, rfl⟩, by decide, by decide, of_yields (by decide +kernel),
    of_yields (by decide +kernel), of_yields (by decide +kernel)⟩
theorem witness_LldtLoads_memory : ∃ w t, WordSource [] (.mem32 (.direct 0x2000)) (poke (tables []) 0x2000 [0x28, 0]) w t
    ∧ w = 0x0028 := by
  obtain ⟨pas, t, h, hb⟩ := of_yields (r := operandBytes .ds false 0x2000 2 (poke (tables []) 0x2000 [0x28, 0]))
    (f := fun pas t => t.bytesAt pas == [0x28, 0]) (by decide +kernel)
  exact ⟨0x0028, t, ⟨0x28, 0, pas, h, by decide +kernel, beq_iff_eq.mp hb, by decide⟩, rfl⟩
theorem witness_LtrLoads : (tables []).prot = true ∧ (tables []).cpl = 0 ∧ (tables []).paging = false
    ∧ Memory.wf (tables []).mem = true ∧ WordSource [] (.reg .eax) (tables []) 0 (tables [])
    ∧ (∃ d u, readDescriptor 0x0038 (.gp (selCode 0x0038)) (tables []) = .ok (d, u)
        ∧ (field (0x0038 : Word16) 2 14 != 0 && !(!bit d.attr 4 && (field d.attr 0 4 == 1 || field d.attr 0 4 == 9))) = true)
    ∧ (∃ d u, readDescriptor 0x0020 (.gp (selCode 0x0020)) (poke (tables []) 0x12025 [0x09]) = .ok (d, u)
        ∧ (!bit d.attr 4 && field d.attr 0 4 == 9 && !bit d.attr 7) = true)
    ∧ ∃ d u, readDescriptor 0x0030 (.gp (selCode 0x0030)) (tables []) = .ok (d, u)
        ∧ (!bit d.attr 4 && field d.attr 0 4 == 9 && bit d.attr 7 && answers (markBusy 0x0030 true u)) = true :=
  ⟨by decide +kernel, by decide +kernel, by decide +kernel, by decide +kernel, ⟨by decide +kernel, rfl⟩,
    of_yields (by decide +kernel), of_yields (by decide +kernel), of_yields (by decide +kernel)⟩
theorem witness_IllegalForms : Plain [] ∧ (real []).pe = false ∧ (v86 []).vm = true
    ∧ (∀ s : State, s = { prot [] with part := bare } → s.part.features.rdmsr = false
      ∧ s.part.features.wrmsr = false ∧ s.part.features.rdtsc = false
      ∧ s.part.features.rdpmc = false ∧ s.part.features.cpuid = false ∧ s.part.features.cr4 = false)
    ∧ (prot []).invalidForm (.movToCr [] 3 5 .eax) = true ∧ { prot [] with cr4 := 8 }.invalidForm (.movToDr [] 3 4 .eax) = true
    ∧ (real []).invalidForm (.str [] (.reg .eax)) = true := by
  refine ⟨by decide, by decide +kernel, by decide +kernel, ?_, by decide +kernel, by decide +kernel, by decide +kernel⟩
  rintro s rfl
  decide +kernel
theorem witness_LockRaisesUd : Prefix.lock ∈ (Instr.clts [.opSize, .lock]).prefixes := by decide
theorem witness_PrivilegedForms : Plain [] ∧ (user []).cpl ≠ 0 ∧ (v86 []).cpl ≠ 0 ∧ (user []).vm = false
    ∧ isRegister (.mem32 (.direct 0)) = false ∧ (user []).hasCr 0 = true ∧ (user []).hasCr 4 = true
    ∧ (user []).noDebugReg 0 = false ∧ (user []).noDebugReg 7 = false ∧ (user []).part.features.rdmsr = true
    ∧ (user []).part.features.wrmsr = true := by decide +kernel
theorem witness_ControlRegisterRead : Plain [] ∧ (real []).cpl = 0 ∧ (prot []).cpl = 0 ∧ (prot []).part.features.cr4 = true := by
  decide +kernel
theorem witness_NoSuchControlRegister :
    (State.resetOf { Part.default with features := { Features.default with cr4 := false } }).part.features.cr4 = false := by decide
theorem witness_ControlRegister0Written : (real []).cpl = 0
    ∧ (∀ v : Word32, v ∈ [0x80000000, 0x20000000] →
        (bit v 31 = true ∧ bit v 0 = false) ∨ (bit v 30 = false ∧ bit v 29 = true))
    ∧ ∀ v : Word32, v ∈ [0, 0xFFFFFFFF, 0x60000011] →
        ¬ ((bit v 31 = true ∧ bit v 0 = false) ∨ (bit v 30 = false ∧ bit v 29 = true)) := by
  refine ⟨by decide +kernel, ?_, ?_⟩ <;> intro v hv <;> fin_cases hv <;> decide
theorem witness_ControlRegister3Written : Plain [] ∧ (prot []).cpl = 0 := by decide +kernel
theorem witness_ControlRegisters2And4Written : Plain [] ∧ (prot []).cpl = 0 ∧ (prot []).part.features.cr4 = true
    ∧ bit ((withEax (prot []) 0x20).reg .eax) 5 = true ∧ bit ((withEax (prot []) 0x80000000).reg .eax) 31 = true
    ∧ bit ((withEax (prot []) 0x200).reg .eax) 9 = true ∧ (prot []).part.features.osfxsr = false
    ∧ ∀ k, bit (0x1DF : Word32) k = true → (prot []).part.features = Features.default ∧ k ∈ [0, 1, 2, 3, 4, 6, 7, 8] := by
  refine ⟨by decide, by decide +kernel, by decide +kernel, by decide +kernel, by decide +kernel, by decide +kernel,
    by decide +kernel, fun k hk => ⟨by decide +kernel, ?_⟩⟩
  have hlt : k < 32 := BitVec.lt_of_getLsbD hk
  interval_cases k <;> first | decide | exact absurd hk (by decide)
theorem witness_MachineStatusWordLoaded : (user []).cpl ≠ 0 ∧ (real []).cpl = 0
    ∧ WordSource [] (.reg .eax) (withEax (real []) 0xFFFF0001) 1 (withEax (real []) 0xFFFF0001)
    ∧ bit (1 : Word16) 0 = true ∧ (withEax (real []) 0xFFFF0001).pe = false :=
  ⟨by decide +kernel, by decide +kernel, ⟨by decide +kernel, rfl⟩, by decide, by decide +kernel⟩
theorem witness_TaskSwitchedCleared : Plain [] ∧ (prot []).cpl = 0 ∧ (user []).cpl ≠ 0 := by decide +kernel
theorem witness_DebugRegisterMoves : Plain [] ∧ (prot []).cpl = 0 ∧ bit (prot []).dr7 13 = false := by decide +kernel
theorem witness_DebugRegisterAliases : ∀ s : State, s = { prot [] with cr4 := 8 } →
    bit s.cr4 3 = true ∧ s.part.features.de = true ∧ bit (prot []).cr4 3 = false
    ∧ { s with part := { Part.default with features := { Features.default with de := false } } }.part.features.de = false := by
  rintro s rfl
  decide +kernel
theorem witness_DebugGuard : ({ prot [] with dr7 := 0x2000 }.cpl = 0 ∧ { prot [] with dr7 := 0x2000 }.noDebugReg 5 = false
      ∧ bit { prot [] with dr7 := 0x2000 }.dr7 13 = true)
    ∧ (∃ a t, deliver ((Exn.db 0x2000 false).event { real [] with dr7 := 0x2000 }) { real [] with dr7 := 0x2000 } = .ok (a, t))
    ∧ ∃ a t, deliver (Exn.ud.event { real [] with dr7 := 0x2000 }) { real [] with dr7 := 0x2000 } = .ok (a, t) :=
  ⟨by decide +kernel, of_answers (by decide +kernel), of_answers (by decide +kernel)⟩
theorem witness_TestRegisterMoves : Plain [] ∧ (prot []).cpl = 0 ∧ (5 : BitVec 3) ≠ 6 ∧ (5 : BitVec 3) ≠ 7 := by decide +kernel
theorem witness_TlbWriteCommand : ∀ s : State, s = withEax { paged with tr7 := 0x00345010, tlb := hit.tlb } 0x00012CC0 →
    s.cpl = 0 ∧ bit (s.reg .eax) 0 = false ∧ bit s.tr7 4 = true ∧ bit { s with tr7 := 0 }.tr7 4 = false ∧ s.tlb.length = 32
    ∧ bit (s.reg .eax) 11 = true ∧ s.tlbHits (field (s.reg .eax) 12 20) = [field s.tr7 2 2]
    ∧ s.paging = true ∧ field (0x00012FFF : Word32) 12 20 = field (s.reg .eax) 12 20 := by
  rintro s rfl
  decide +kernel
theorem witness_TlbLookupCommand : ∀ s : State, s = withEax { prot [] with tlb := hit.tlb } 0x000127E1 →
    s.cpl = 0 ∧ bit (s.reg .eax) 0 = true ∧ s.tlbHits (field (s.reg .eax) 12 20) = [0]
    ∧ (let e := s.tlbEntry 0 (field (s.reg .eax) 12 20)
      pairMatches true true e.d = true ∧ pairMatches false true e.d = false ∧ pairMatches true true e.u = true
        ∧ pairMatches true true e.w = true)
    ∧ (prot []).tlbHits 0x12 = []
    ∧ 1 < (State.tlbHits { s with tlb := s.tlb.set 10 entry61 } 0x12).length := by
  rintro s rfl
  decide +kernel
/-- Real Mode, another level, an unknown number and the numbers of `MSR_SET`, on parts that lack one of the two. -/
theorem witness_ModelSpecificMoves : Plain [] ∧ ∀ f : Features, f ∈ [Features.default, { Features.default with rdmsr := false },
      { Features.default with wrmsr := false }] → let q := { Part.default with features := f }
    (f.rdmsr = true ∨ f.wrmsr = true) ∧ { real [] with part := q }.pe = false
    ∧ ({ user [] with part := q }.pe = true ∧ { user [] with part := q }.cpl ≠ 0)
    ∧ (∀ s : State, s = { withEcx (prot []) 3 with part := q } → s.pe = true ∧ s.hasMsr s.gpr.ecx = false)
    ∧ ∀ k : Word32, k ∈ [0, 1, 0x0E, 0x10] → ∀ s : State, s = { withEcx (prot []) k with part := q } →
        s.pe = true ∧ s.cpl = 0 ∧ s.hasMsr s.gpr.ecx = true ∧ s.msr.get s.gpr.ecx = some 0
        ∧ msrReserved s.gpr.ecx (s.gpr.edx ++ s.gpr.eax) = false ∧ k ∉ s.part.msrReadOnly := by
  refine ⟨by decide, fun f hf => ?_⟩
  fin_cases hf <;> refine ⟨by decide, by decide +kernel, by decide +kernel, fun s hs => ?_, fun k hk s hs => ?_⟩ <;>
    first
      | (subst hs; decide +kernel)
      | (fin_cases hk <;> subst hs <;> decide +kernel)
/-- A counter of 40 bits, and the time-stamp counter on a part that does not let it be written. -/
theorem witness_ModelSpecificMoves_fixed :
    let p := { Part.default with msrSet := [0x10, 0x12], msrReadOnly := [0x10] }
    let s : State := { prot [] with part := p, gpr := { State.reset.gpr with ecx := 0x12, edx := 0x100 } }
    s.hasMsr 0x12 = true ∧ 2 ^ 40 ≤ (s.gpr.edx ++ s.gpr.eax).toNat ∧ s.hasMsr 0x10 = true ∧ 0x10 ∈ p.msrReadOnly := by
  decide +kernel
theorem witness_ModelSpecificRoundTrip : ∀ s : State, s = withEcx (prot []) 0x0E →
    s.part.features.rdmsr = true ∧ s.part.features.wrmsr = true ∧ s.prot = true ∧ s.cpl = 0 ∧ s.hasMsr s.gpr.ecx = true
    ∧ s.msrFixed s.gpr.ecx = false ∧ msrReserved s.gpr.ecx (s.gpr.edx ++ s.gpr.eax) = false ∧ (0x10 : Word32) ≠ s.gpr.ecx := by
  rintro s rfl
  decide +kernel
theorem witness_TimeStampRead : (prot []).part.features.rdtsc = true ∧ bit (prot []).cr4 2 = false
    ∧ ({ user [] with cr4 := 4 }.part.features.rdtsc = true ∧ bit { user [] with cr4 := 4 }.cr4 2 = true
      ∧ { user [] with cr4 := 4 }.cpl ≠ 0)
    ∧ ({ real [] with cr4 := 4 }.part.features.rdtsc = true ∧ { real [] with cr4 := 4 }.pe = false) := by decide +kernel
theorem witness_PerformanceCounterRead : Plain []
    ∧ ((user []).part.features.rdpmc = true ∧ bit (user []).cr4 8 = false ∧ (user []).cpl ≠ 0)
    ∧ (∀ s : State, s = withEcx { user [] with cr4 := 0x100 } 2 →
        s.part.features.rdpmc = true ∧ bit s.cr4 8 = true ∧ s.gpr.ecx ≠ 0 ∧ s.gpr.ecx ≠ 1)
    ∧ ∀ k : Word32, k ∈ [0, 1] → ∀ s : State, s = withEcx (prot []) k →
        s.part.features.rdpmc = true ∧ s.cpl = 0 ∧ s.gpr.ecx = k := by
  refine ⟨by decide, by decide +kernel, ?_, fun k hk s hs => ?_⟩
  · rintro s rfl
    decide +kernel
  · fin_cases hk <;> subst hs <;> decide +kernel
theorem witness_ProcessorIdentified : (v86 []).part.features.cpuid = true ∧ (v86 []).idf = false
    ∧ { v86 [] with eflags := 0x00223002 }.idf = true := by decide +kernel

/-- The stack pointer at 0 (both pushes wrap to the top of the segment). -/
theorem witness_FarCallReal : ∀ s : State, s ∈ [{ real [] with gpr := State.reset.gpr }, v86 []] →
    (s.pe = false ∨ s.vm = true) ∧ Memory.wf s.mem = true
    ∧ ∃ pas₁ t₁, operandBytes .ss true (s.pushOffset .s16) 2 s = .ok (pas₁, t₁)
    ∧ ∃ a, push .s16 (zext32 s.segs.cs.sel) s = .ok ((), a)
    ∧ ∃ pas₂ t₂, operandBytes .ss true (a.pushOffset .s16) 2 a = .ok (pas₂, t₂)
    ∧ ∃ b, push .s16 (s.eipPlus (Instr.callPtr [] (.ptr16 0 0)).length) a = .ok ((), b) := by
  have ready : ∀ s : State, answers (operandBytes .ss true (s.pushOffset .s16) 2 s) = true →
      yields (push .s16 (zext32 s.segs.cs.sel) s) (fun _ a => answers (operandBytes .ss true (a.pushOffset .s16) 2 a)
        && answers (push .s16 (s.eipPlus (Instr.callPtr [] (.ptr16 0 0)).length) a)) = true →
      ∃ pas₁ t₁, operandBytes .ss true (s.pushOffset .s16) 2 s = .ok (pas₁, t₁)
        ∧ ∃ a, push .s16 (zext32 s.segs.cs.sel) s = .ok ((), a)
        ∧ ∃ pas₂ t₂, operandBytes .ss true (a.pushOffset .s16) 2 a = .ok (pas₂, t₂)
        ∧ ∃ b, push .s16 (s.eipPlus (Instr.callPtr [] (.ptr16 0 0)).length) a = .ok ((), b) := by
    intro s h1 h2
    obtain ⟨pas, t, h⟩ := of_answers h1
    obtain ⟨_, a, ha, h2⟩ := of_yields h2
    rw [Bool.and_eq_true] at h2
    obtain ⟨pas₂, t₂, h₂⟩ := of_answers h2.1
    obtain ⟨_, b, hb⟩ := of_answers h2.2
    exact ⟨pas, t, h, a, ha, pas₂, t₂, h₂, b, hb⟩
  intro s hs
  fin_cases hs <;> exact ⟨by decide +kernel, by decide +kernel, ready _ (by decide +kernel) (by decide +kernel)⟩
theorem witness_FarCallReal_memory : ∃ off sel c, readFar [] (.mem16 (.direct 0x2000)) (real []) = .ok ((off, sel), c) := by
  obtain ⟨a, t, h⟩ := of_answers (r := readFar [] (.mem16 (.direct 0x2000)) (real [])) (by decide +kernel)
  exact ⟨a.1, a.2, t, h⟩
theorem witness_FarCallToTask : (tasks []).prot = true ∧ (user []).prot = true ∧ selNull 0x30 = false
    ∧ (∃ d u, readDescriptor 0x30 (.gp (selCode 0x30)) (user []) = .ok (d, u)
        ∧ (!bit d.attr 4 && field d.attr 0 4 == 9 && decide (d.dpl < (user []).cpl)) = true)
    ∧ (∃ d u, readDescriptor 0x30 (.gp (selCode 0x30)) (tasks []) = .ok (d, u)
        ∧ (!bit d.attr 4 && field d.attr 0 4 == 9 && decide ((tasks []).cpl ≤ d.dpl) && decide (selRpl 0x30 ≤ d.dpl)
          && bit d.attr 7 && answers (taskSwitch 0x30 d .call ((tasks []).eipPlus 7) (clearRf (tasks []).eflags) 0 u)) = true)
    ∧ (∃ d u, readDescriptor 0x38 (.gp (selCode 0x38)) (tasks []) = .ok (d, u)
        ∧ (!bit d.attr 4 && field d.attr 0 4 == 0xB) = true)
    ∧ (∃ d u, readDescriptor 0x08 (.gp (selCode 0x08)) (tasks []) = .ok (d, u) ∧ (bit d.attr 4 && bit d.attr 3) = true)
    ∧ ∃ d u, readDescriptor 0x20 (.gp (selCode 0x20)) (poke (tasks []) 0x12025 [0x8C]) = .ok (d, u)
        ∧ (!bit d.attr 4 && field d.attr 0 4 == 0xC) = true :=
  ⟨by decide +kernel, by decide +kernel, by decide, of_yields (by decide +kernel), of_yields (by decide +kernel),
    of_yields (by decide +kernel), of_yields (by decide +kernel), of_yields (by decide +kernel)⟩

/-- As `tasks`, with task gates to entry 6 as entries 8 (present) and 9 (not present), and to entry 7, which is busy, as entry 10. -/
def gates (code : List Byte) : State :=
  poke (tasks code) 0x12040 [0, 0, 0x30, 0, 0, 0x85, 0, 0, 0, 0, 0x30, 0, 0, 5, 0, 0, 0, 0, 0x38, 0, 0, 0x85, 0, 0]

/-- As `gates` with 16-bit TSSs of limit 2Bh as entries 6 and 7 (log 45): IP 0x7000, FLAGS 2, AX 0xAA, SP 0x6000, CS 8, SS 0x10. -/
def smallTasks (code : List Byte) : State :=
  { poke (poke (poke (gates code) 0x12030 [0x2B, 0, 0, 0, 3, 0x81]) 0x12038 [0x2B, 0, 0, 0, 4, 0x83])
      0x3000E [0, 0x70, 2, 0, 0xAA, 0, 0, 0, 0, 0, 0, 0, 0, 0x60, 0, 0, 0, 0, 0, 0, 0, 0, 8, 0, 0x10, 0, 0, 0, 0, 0] with
    tr := { sel := 0x38, cache := { base := 0x40000, limit := 0x2B, attr := 0x083 } } }

/-- Log 45; 40 R228: the type becomes 3. -/
theorem test_task16 : after (step (smallTasks [0x9A, 0, 0, 0, 0, 0x40, 0])) (fun t => t.eip == 0x7000 && t.tr.cache.type == 3 && t.nt
    && t.segs.cs.sel == 8 && t.segs.ss.sel == 0x10 && t.segs.fs.sel == 0 && peek t 0x30000 2 == [0x38, 0]
    && peek t 0x12035 1 == [0x83] && peek t 0x4000E 2 == [7, 0] && peek t 0x4001A 2 == [0, 0x80]) = true := by decide +kernel

/-- Selectors outside the GDT by one byte, into no LDT, and into an LDT that ends before it; a task gate's selector outside the GDT. -/
theorem witness_FarCallToTask_outside : (∀ x : Word16 × State, x ∈ [((0x40 : Word16), { tasks [] with gdtr := { base := 0x12000, limit := 0x46 } }),
      (0x0C, { tasks [] with ldtr := .null 0 }), (0x0C, { tasks [] with ldtr := { sel := 0x28, cache := { base := 0x20000, limit := 14, attr := 0x082 } } })] →
      x.2.prot = true ∧ field x.1 2 14 ≠ 0 ∧ x.2.outsideTable x.1)
    ∧ ∀ s : State, s = poke { gates [] with gdtr := { base := 0x12000, limit := 0x57 } } 0x12042 [0x58] →
      s.outsideTable 0x58 ∧ ∃ d u, readDescriptor 0x40 (.gp (selCode 0x40)) s = .ok (d, u)
        ∧ (field d.attr 0 4 == 5 && bit d.attr 7 && low16 d.base == 0x58) = true := by
  refine ⟨fun x hx => by fin_cases hx <;> decide +kernel, ?_⟩
  rintro s rfl
  exact ⟨by decide +kernel, of_yields (by decide +kernel)⟩

/-- Task gates: to an available TSS of either size, to one that is not present, to a busy one, and one that is not present itself. -/
theorem witness_FarCallToTask_gates : (gates []).prot = true
    ∧ (∀ x : State × BitVec 4, x ∈ [(gates [], 9), (smallTasks [], 1)] →
      ∃ d u, readDescriptor 0x40 (.gp (selCode 0x40)) x.1 = .ok (d, u)
        ∧ (!bit d.attr 4 && field d.attr 0 4 == 5 && bit d.attr 7 && low16 d.base == 0x30
          && yields (readDescriptor 0x30 (.gp (selCode 0x30)) u) (fun d u => !bit d.attr 4 && field d.attr 0 4 == x.2 && bit d.attr 7
            && answers (taskSwitch 0x30 d .call 7 2 0 u))) = true)
    ∧ (∀ x : Byte × BitVec 4, x ∈ [(0x09, 9), (0x01, 1)] →
      ∃ d u, readDescriptor 0x30 (.gp (selCode 0x30)) (poke (gates []) 0x12035 [x.1]) = .ok (d, u)
        ∧ (!bit d.attr 4 && field d.attr 0 4 == x.2 && !bit d.attr 7) = true)
    ∧ (∃ d u, readDescriptor 0x48 (.gp (selCode 0x48)) (gates []) = .ok (d, u) ∧ (field d.attr 0 4 == 5 && !bit d.attr 7) = true)
    ∧ ∃ d u, readDescriptor 0x50 (.gp (selCode 0x50)) (gates []) = .ok (d, u)
        ∧ (field d.attr 0 4 == 5 && bit d.attr 7 && low16 d.base == 0x38
          && yields (readDescriptor 0x38 (.gp (selCode 0x38)) u) (fun d _ => !bit d.attr 4 && field d.attr 0 4 == 0xB)) = true :=
  ⟨by decide +kernel, fun x hx => by fin_cases hx <;> exact of_yields (by decide +kernel),
    fun x hx => by fin_cases hx <;> exact of_yields (by decide +kernel), of_yields (by decide +kernel), of_yields (by decide +kernel)⟩

/-- CALL and events go to the TSS of entry 6, IRET from entry 7 back to it; each TSS of 32 bits and of 16. -/
theorem witness_TaskSwitchRegisters : ∀ x : State × SegCache, x ∈ [(tasks [], { base := 0x00030000, limit := 0x67, attr := 0x089 }),
      (smallTasks [], { base := 0x00030000, limit := 0x2B, attr := 0x081 }),
      ({ smallTasks [] with tr := (tasks []).tr }, { base := 0x00030000, limit := 0x2B, attr := 0x081 }),
      ({ tasks [] with tr := (smallTasks []).tr }, { base := 0x00030000, limit := 0x67, attr := 0x089 })] →
    x.1.pe = true ∧ x.1.paging = false ∧ Memory.wf x.1.mem = true
    ∧ (∀ k, k ∈ [0x12035, 0x1203D] → x.1.ram (savedBytes x.1.tr.cache ++ [k]) = true)
    ∧ x.1.ram (addrsFrom 0x30000 2) = true
    ∧ ∀ k : SwitchKind, ∃ t, taskSwitch 0x30 x.2 k 0x00100007 2 0 x.1 = .ok ((), t) ∧ t.vm = false := by
  have run : ∀ (d : SegCache) (s : State), (∀ k, yields (taskSwitch 0x30 d k 0x00100007 2 0 s) (fun _ t => !t.vm) = true) →
      ∀ k : SwitchKind, ∃ t, taskSwitch 0x30 d k 0x00100007 2 0 s = .ok ((), t) ∧ t.vm = false := by
    intro d s h k
    obtain ⟨_, t, h, hv⟩ := of_yields (h k)
    exact ⟨t, h, by simpa using hv⟩
  intro x hx
  fin_cases hx <;> exact ⟨by decide +kernel, by decide +kernel, by decide +kernel,
    fun k hk => by fin_cases hk <;> decide +kernel, by decide +kernel, run _ _ fun k => by cases k <;> decide +kernel⟩

/-- The pops of an IRET answer with values of which `f` holds, in the state after them. -/
def pops (z : OpSize) (s : State) (f : Word32 → Word32 → Word32 → State → Bool) : Bool :=
  yields (pop z s) fun eip a => yields (pop z a) fun cs b => yields (pop z b) fun fl t => f eip cs fl t

theorem of_pops {z : OpSize} {s : State} {f : Word32 → Word32 → Word32 → State → Bool} (h : pops z s f = true) :
    ∃ eip a cs b fl t, pop z s = .ok (eip, a) ∧ pop z a = .ok (cs, b) ∧ pop z b = .ok (fl, t) ∧ f eip cs fl t = true := by
  obtain ⟨eip, a, ha, h⟩ := of_yields h
  obtain ⟨cs, b, hb, h⟩ := of_yields h
  obtain ⟨fl, t, ht, h⟩ := of_yields h
  exact ⟨eip, a, cs, b, fl, t, ha, hb, ht, h⟩

/-- Real Mode at the edge of the stack segment, Virtual-86 Mode with each IOPL and with the virtual flags. -/
theorem witness_InterruptReturn : (∀ sp : Word16, sp ∈ [0, 0xFFFA, 0xFFFE] → ∀ s : State,
      s = { real [] with gpr := { State.reset.gpr with esp := zext32 sp } } →
      s.pe = false ∧ s.operandSize [] = .s16 ∧ sp ≠ 0xFFFF ∧ sp ≠ 0xFFFD ∧ sp ≠ 0xFFFB
        ∧ s.deviceAt (addrsFrom (s.linear .ss (zext32 sp)) 2 ++ addrsFrom (s.linear .ss (zext32 (sp + 2))) 2
          ++ addrsFrom (s.linear .ss (zext32 (sp + 4))) 2) = false)
    ∧ ((v86 []).v86 = true ∧ (v86 []).iopl = 3 ∧ { v86 [] with eflags := 0x00022002 }.iopl ≠ 3 ∧ (v86 []).vme = false)
    ∧ (∃ eip a cs b fl t, pop .s16 (v86 []) = .ok (eip, a) ∧ pop .s16 a = .ok (cs, b) ∧ pop .s16 b = .ok (fl, t) ∧ true = true)
    ∧ ∀ f : Byte, f ∈ [1, 2, 0] → ∀ s : State, s = poke { v86 [] with cr4 := 1, eflags := 0x00122002 } 0x7005 [f] →
        s.v86 = true ∧ s.iopl ≠ 3 ∧ s.vme = true ∧ ∃ eip a cs b fl t, pop .s16 s = .ok (eip, a) ∧ pop .s16 a = .ok (cs, b)
          ∧ pop .s16 b = .ok (fl, t) ∧ (bit fl 8 == bit f 0 && bit fl 9 == bit f 1 && bit s.eflags 20) = true := by
  refine ⟨?_, by decide +kernel, of_pops (f := fun _ _ _ _ => true) (by decide +kernel), ?_⟩
  · intro sp hsp s hs
    fin_cases hsp <;> subst hs <;> decide +kernel
  · intro f hf s hs
    fin_cases hf <;> subst hs <;> exact ⟨by decide +kernel, by decide +kernel, by decide +kernel,
      of_pops (f := fun _ _ fl _ => bit fl 8 == _ && bit fl 9 == _ && _) (by decide +kernel)⟩

/-- Back links with TI = 1, to entry 6, which is not busy, and to entry 7, a busy TSS of either size, present and not. -/
theorem witness_InterruptReturn_task : ∀ x : Byte × Byte × BitVec 4,
    x ∈ [((0x3C : Byte), (0x8B : Byte), (0xB : BitVec 4)), (0x30, 0x8B, 9), (0x38, 0x8B, 0xB), (0x38, 0x0B, 0xB), (0x38, 0x83, 3),
      (0x38, 0x03, 3)] →
    ∀ s : State, s = poke (poke { tasks [] with eflags := 0x4002 } 0x40000 [x.1, 0]) 0x1203D [x.2.1] →
    s.prot = true ∧ s.nt = true ∧ ∃ link c, tss16 s.tr.cache.base 0 s = .ok (link, c)
      ∧ (link == low16 x.1 && (bit link 2 || yields (readDescriptor link (.ts (selCode link)) c) fun d u => !bit d.attr 4
        && field d.attr 0 4 == x.2.2 && (x.1 == 0x30 || bit d.attr 7 == bit x.2.1 7
          && (!bit d.attr 7 || x.2.1 != 0x8B || answers (taskSwitch link d .iret 9 2 0 u))))) = true := by
  intro x hx s hs
  fin_cases hx <;> subst hs <;> exact ⟨by decide +kernel, by decide +kernel, of_yields (by decide +kernel)⟩

/-- From a 16-bit TSS back to entry 6, a busy TSS of 16 bits and of 32. -/
theorem witness_InterruptReturn_task16 : ∀ x : State × Byte, x ∈ [(smallTasks [], 0x83), (tasks [], 0x8B)] → ∀ s : State,
    s = poke (poke { x.1 with eflags := 0x4002, tr := (smallTasks []).tr } 0x40000 [0x30, 0]) 0x12035 [x.2] →
    s.prot = true ∧ s.nt = true ∧ ∃ link c, tss16 s.tr.cache.base 0 s = .ok (link, c)
      ∧ (link == 0x30 && yields (readDescriptor link (.ts (selCode link)) c) fun d u => !bit d.attr 4
        && (field d.attr 0 4 == 0xB || field d.attr 0 4 == 3) && bit d.attr 7 && answers (taskSwitch link d .iret 9 2 0 u)) = true := by
  intro x hx s hs
  fin_cases hx <;> subst hs <;> exact ⟨by decide +kernel, by decide +kernel, of_yields (by decide +kernel)⟩

theorem witness_InterruptReturn_task_outside : ∀ s : State,
    s = poke { tasks [] with eflags := 0x4002, gdtr := { base := 0x12000, limit := 0x3F } } 0x40000 [0x40, 0] →
    s.prot = true ∧ s.nt = true ∧ ∃ link c, tss16 s.tr.cache.base 0 s = .ok (link, c) ∧ (link == 0x40 && decide (s.outsideTable link)) = true := by
  rintro s rfl
  exact ⟨by decide +kernel, by decide +kernel, of_yields (by decide +kernel)⟩

/-- As `gates` with an IRETD frame at 0x8000: EIP 0x100, CS, flags with VM in bit 1 of the third byte, ESP 0x6000, SS. Entries 3 and
4 of the GDT are code and data of level 3, 11 a code segment with limit 0xFF, 12 an absent code segment, 13 absent data of level 3. -/
def returning (cs fl2 ss : Byte) : State :=
  poke (poke (poke (gates []) 0x12018 [0xFF, 0xFF, 0, 0, 0, 0xFB, 0xCF, 0, 0xFF, 0xFF, 0, 0, 0, 0xF3, 0xCF, 0])
    0x12058 [0xFF, 0, 0, 0, 0, 0x9B, 0x40, 0, 0xFF, 0xFF, 0, 0, 0, 0x1B, 0xCF, 0, 0xFF, 0xFF, 0, 0, 0, 0x73, 0xCF, 0])
    0x8000 [0, 1, 0, 0, cs, 0, 0, 0, 2, 0, fl2, 0, 0, 0x60, 0, 0, ss, 0, 0, 0]

theorem witness_InterruptReturn_checks : ∀ x : Byte × (SegCache → Bool), x ∈ [((0x28 : Byte), fun d => !bit d.attr 4),
      (0x60, fun d => bit d.attr 4 && bit d.attr 3 && field d.attr 5 2 == 0 && !bit d.attr 7),
      (0x58, fun d => bit d.attr 7 && decide (d.byteLimit < 0x100)),
      (0x08, fun d => bit d.attr 7 && decide (0x100 ≤ d.byteLimit))] →
    (returning x.1 0 0).prot = true ∧ (returning x.1 0 0).nt = false ∧ ∃ eip a cs b fl t, pop .s32 (returning x.1 0 0) = .ok (eip, a)
      ∧ pop .s32 a = .ok (cs, b) ∧ pop .s32 b = .ok (fl, t)
      ∧ (!bit fl 17 && eip == 0x100 && cs == zext32 x.1 && yields (readDescriptor (low16 cs) (.gp (selCode (low16 cs))) t)
        (fun d u => x.2 d && (x.1 != 8 || answers (loadSeg .cs (low16 cs) d u)))) = true := by
  intro x hx
  fin_cases hx <;> exact ⟨by decide +kernel, by decide +kernel, of_pops (by decide +kernel)⟩

theorem witness_InterruptReturn_outer : ∀ x : Byte × (SegCache → Bool), x ∈ [((0x10 : Byte), fun d => field d.attr 5 2 == 0),
      (0x6B, fun d => field d.attr 5 2 == 3 && bit d.attr 1 && !bit d.attr 3 && !bit d.attr 7),
      (0x23, fun d => field d.attr 5 2 == 3 && bit d.attr 1 && !bit d.attr 3 && bit d.attr 7)] →
    ∃ eip a cs b fl t, pop .s32 (returning 0x1B 0 x.1) = .ok (eip, a) ∧ pop .s32 a = .ok (cs, b) ∧ pop .s32 b = .ok (fl, t)
      ∧ yields (readDescriptor (low16 cs) (.gp (selCode (low16 cs))) t) (fun d u => bit d.attr 7 && bit d.attr 3
        && field d.attr 5 2 == 3 && decide (0x100 ≤ d.byteLimit)
        && yields (pop .s32 u) fun esp v => yields (pop .s32 v) fun ss w => ss == zext32 x.1
          && yields (readDescriptor (low16 ss) (.gp (selCode (low16 ss))) w) fun e k => x.2 e && (x.1 != 0x23
            || yields (loadSeg .ss (low16 ss) e k) fun _ k => answers (loadSeg .cs (low16 cs) d
              { k with gpr := { k.gpr with esp := esp }, segs := nullInner 3 k.segs }))) = true := by
  intro x hx
  fin_cases hx <;> exact of_pops (by decide +kernel)

/-- A CS and an SS outside the GDT. -/
theorem witness_InterruptReturn_outside :
    (∃ eip a cs b fl t, pop .s32 (returning 0 0 0) = .ok (eip, a) ∧ pop .s32 a = .ok (cs, b) ∧ pop .s32 b = .ok (fl, t)
      ∧ (!bit fl 17 && cs == 0 && decide ({ returning 0x1B 0 0xFB with gdtr := { base := 0x12000, limit := 0xF7 } }.outsideTable 0xFB)) = true)
    ∧ ∀ s : State, s = { returning 0x1B 0 0xFB with gdtr := { base := 0x12000, limit := 0xF7 } } → ∃ eip a cs b fl t, pop .s32 s = .ok (eip, a)
      ∧ pop .s32 a = .ok (cs, b) ∧ pop .s32 b = .ok (fl, t)
      ∧ yields (readDescriptor (low16 cs) (.gp (selCode (low16 cs))) t) (fun _ u => yields (pop .s32 u) fun _ v => yields (pop .s32 v) fun ss _ =>
        field ss 2 14 != 0 && decide (s.outsideTable (low16 ss))) = true := by
  refine ⟨of_pops (by decide +kernel), ?_⟩
  rintro s rfl
  exact of_pops (by decide +kernel)

/-- 44 R302: an IRETD to EIP 0x10000 in 16-bit code of limit FFFFh raises #GP(0) with the EIP of the IRETD. -/
theorem test_iretd_to_16 :
    after (step (poke (poke (poke (returning 0x58 0 0) 0x100000 [0xCF]) 0x12058 [0xFF, 0xFF, 0, 0, 0, 0x9B, 0]) 0x8000 [0, 0, 1]))
      (fun t => t.eip == 0x00200000 && t.gpr.esp == 0x7FF0 && peek t 0x7FF0 8 == [0, 0, 0, 0, 0, 0, 0x10, 0]) = true := by
  decide +kernel

theorem witness_InterruptReturn_v86 : (returning 0 2 0).cpl = 0 ∧ ∃ eip a cs b fl t, pop .s32 (returning 0 2 0) = .ok (eip, a)
    ∧ pop .s32 a = .ok (cs, b) ∧ pop .s32 b = .ok (fl, t)
    ∧ (bit fl 17 && yields (pop .s32 t) fun _ t => yields (pop .s32 t) fun _ t => yields (pop .s32 t) fun _ t =>
      yields (pop .s32 t) fun _ t => yields (pop .s32 t) fun _ t => answers (pop .s32 t)) = true :=
  ⟨by decide +kernel, of_pops (by decide +kernel)⟩
theorem witness_WaitAndEsc : Plain [] ∧ ({ real [] with cr0 := 0x6000001A }.mp = true ∧ { real [] with cr0 := 0x6000001A }.ts = true)
    ∧ ((real []).mp = false ∧ (real []).env.numericError = false ∧ (real []).em = false ∧ (real []).ts = false)
    ∧ (∀ s : State, s = { real [] with cr0 := 0x60000030, env := { Env.inactive with numericError := true } } →
        s.mp = false ∧ s.em = false ∧ s.ts = false ∧ s.env.numericError = true ∧ s.ne = true)
    ∧ (∀ l : Bool, ∀ s : State, s = { real [] with env := { Env.inactive with numericError := true, ignneLow := l } } →
        s.mp = false ∧ s.em = false ∧ s.ts = false ∧ s.env.numericError = true ∧ s.ne = false ∧ s.env.ignneLow = l)
    ∧ escWaits 1 2 (.reg .eax) = true ∧ escWaits 3 4 (.reg .ebx) = false
    ∧ (∀ s : State, s = { real [] with cr0 := 0x60000014 } → s.em = true ∧ s.realReady 7 ∧ Memory.wf s.mem = true) := by
  refine ⟨by decide, by decide +kernel, by decide +kernel, ?_, ?_, by decide, by decide, ?_⟩
  · rintro s rfl
    decide +kernel
  · rintro l s rfl
    cases l <;> decide +kernel
  · rintro s rfl
    unfold State.realReady
    decide +kernel
/-- The last vector of the table, and the stack pointer at 0, 2 and 4. -/
theorem witness_RealModeEntry : ∀ sp : Word32, sp ∈ [0, 2, 4, 0xFFFF7000] →
    State.realReady { real [] with gpr := { State.reset.gpr with esp := sp }, idtr := { base := 0, limit := 0x3FF } } 0xFF
    ∧ State.realReady { real [] with gpr := { State.reset.gpr with esp := sp }, idtr := { base := 0, limit := 7 } } 1
    ∧ Memory.wf (real []).mem = true := by
  intro sp hs
  fin_cases hs <;> (unfold State.realReady; decide +kernel)
/-- #GP through an interrupt gate, and through a task gate, whose code is then pushed in the new task. -/
theorem witness_RealModeEntry_deliver :
    (∃ c t, deliver ((Exn.gp 0).event (tables [])) (tables []) = .ok (c, t) ∧ (c == none) = true)
    ∧ ∃ c t, deliver ((Exn.gp 4).event (poke (tasks []) 0x13068 [0, 0, 0x30, 0, 0, 0x85, 0, 0]))
        (poke (tasks []) 0x13068 [0, 0, 0x30, 0, 0, 0x85, 0, 0]) = .ok (c, t)
        ∧ (c == some 4 && answers (pushFrame .s32 4 t)) = true :=
  ⟨of_yields (by decide +kernel), of_yields (by decide +kernel)⟩
theorem witness_BreakpointInstruction : Plain [] ∧ (real []).realReady 3 ∧ Memory.wf (real []).mem = true := by
  unfold State.realReady
  decide +kernel

/-- INT3 through a gate of DPL 3, and through one of DPL 0. -/
theorem witness_BreakpointInstruction_gate :
    (∃ c t, deliver (breakpointEvent 9) (poke (tables []) 0x13018 [0, 0, 8, 0, 0, 0xEF, 0x20, 0]) = .ok (c, t))
    ∧ ∀ s : State, s = poke (user []) 0x13018 [0, 0, 8, 0, 0, 0x8E, 0x20, 0] → s.pe = true ∧ s.paging = false
      ∧ 31 ≤ s.idtr.limit.toNat ∧ s.deviceAt (addrsFrom (s.idtr.base + 24) 8) = false
      ∧ field (s.gateAt (s.idtr.base + 24)).access 5 2 < s.cpl
      ∧ (s.gateAt (s.idtr.base + 24)).access &&& 0x1F ∈ [(6 : Byte), 7, 0xE, 0xF]
      ∧ deliver (breakpointEvent 9) s = .error (.exc (.gp 26)) := by
  refine ⟨of_answers (by decide +kernel), ?_⟩
  rintro s rfl
  exact ⟨by decide +kernel, by decide +kernel, by decide +kernel, by decide +kernel, by decide +kernel, by decide +kernel,
    of_stops (by decide +kernel)⟩
/-- The bytes of the frame of an entry, as the statement computes them: from the size of a slot and of the stack pointer. -/
def framed (wide big : Bool) (base esp : Word32) (n : Nat) : List Word32 × List Word32 :=
  let w : Nat := if wide then 4 else 2
  let slotAt := fun k : Nat => let off := esp - BitVec.ofNat 32 (w * (k + 1)); if big then off else zext32 (low16 off)
  ((List.range n).map slotAt, (List.range n).flatMap fun k => addrsFrom (base + slotAt k) w)

/-- The state and the event of V101, a trap without error code through a trap gate at the end of the IDT, and through a 16-bit gate;
with a 32-bit stack, and with a 16-bit one whose pointer wraps below 0. -/
theorem witness_ProtectedEntrySameLevel : ∀ x : Event × Bool × Nat,
    x ∈ [({ vector := 13, code := some 0, eip := 9, rf := true, software := false, external := false }, true, 4),
      ({ vector := 0xFF, code := none, eip := 9, rf := false, software := true, external := false }, true, 3),
      ({ vector := 0xFE, code := none, eip := 9, rf := false, software := true, external := false }, false, 3)] →
    ∀ y : Bool × Word32, y ∈ [(true, 0x8000), (false, 0xABCD0004)] →
    let ev := x.1
    let u := poke (tables []) 0x137F0 [0, 0, 8, 0, 0, 0x86, 0, 0, 0, 0, 8, 0, 0, 0x8F, 0x20, 0]
    let s := { u with gpr := { u.gpr with esp := y.2 }, segs := flat (code32 0) (if y.1 then data32 0 else low) 8 0x10 }
    let g := s.gateAt (s.idtr.base + zext32 ev.vector * 8)
    let d := s.descriptorAt (s.gdtr.base + zext32 (g.sel &&& 0xFFF8))
    let f := framed x.2.1 y.1 0 y.2 x.2.2
    s.pe = true ∧ s.vm = false ∧ s.paging = false ∧ Memory.wf s.mem = true
    ∧ ev.vector.toNat * 8 + 7 ≤ s.idtr.limit.toNat ∧ g.access &&& 0x1F ∈ [(6 : Byte), 7, 0xE, 0xF]
    ∧ bit g.access 7 = true ∧ s.cpl ≤ field g.access 5 2 ∧ field g.sel 2 14 ≠ 0 ∧ bit g.sel 2 = false
    ∧ (g.sel &&& 0xFFF8).toNat + 7 ≤ s.gdtr.limit.toNat ∧ bit d.attr 4 = true ∧ bit d.attr 3 = true ∧ bit d.attr 7 = true
    ∧ bit d.attr 0 = true ∧ s.cpl ≤ field d.attr 5 2
    ∧ (bit g.access 3 = x.2.1 ∧ bit s.segs.ss.cache.attr 10 = y.1 ∧ s.segs.ss.cache.base = 0 ∧ (ev.slots s).length = x.2.2)
    ∧ (f.1.all fun off => s.segAllows .ss true off (if x.2.1 then 4 else 2)) = true
    ∧ s.deviceAt (addrsFrom (s.idtr.base + zext32 ev.vector * 8) 8) = false
    ∧ s.deviceAt (addrsFrom (s.gdtr.base + zext32 (g.sel &&& 0xFFF8)) 8) = false ∧ s.ram f.2 = true := by
  intro x hx y hy
  fin_cases hx <;> fin_cases hy <;> decide +kernel

/-- Entry to level 0 from level 3 and from Virtual-86 Mode: gates of 32 and 16 bits, with a stack of entry 2 at 0x9000 in the TSS,
which has 32 or 16 bits, as its stack pointer has. -/
theorem witness_ProtectedEntrySameLevel_inner : ∀ x : State × Byte × Byte × Bool × Bool × Nat,
    x ∈ [({ user [] with eflags := 2 }, 0x8E, 0xCF, true, true, 6), ({ user [] with eflags := 2 }, 0x86, 0x8F, false, false, 6),
      ({ user [] with eflags := 0x00023002, segs := flat low low 0 0 }, 0x8E, 0x8F, true, false, 10),
      ({ user [] with eflags := 0x00023002, segs := flat low low 0 0 }, 0x87, 0xCF, false, true, 10)] →
    ∀ y : SegCache × List Byte, y ∈ [((tables []).tr.cache, [0, 0, 0x00, 0x90, 0, 0, 0x10]),
      ({ base := 0x40000, limit := 5, attr := 0x083 }, [0x00, 0x90, 0x10])] →
    let s := poke (poke (poke { x.1 with tr := { sel := 0x38, cache := y.1 } } 0x40002 y.2) 0x12010 [0xFF, 0xFF, 0, 0, 0, 0x93, x.2.2.1, 0]) 0x1306D [x.2.1]
    let ev : Event := { vector := 13, code := some 0, eip := 9, rf := true, software := false, external := false }
    let g := s.gateAt (s.idtr.base + zext32 ev.vector * 8)
    let codeAddr := s.gdtr.base + zext32 (g.sel &&& 0xFFF8)
    let d := s.descriptorAt codeAddr
    let small := s.tr.cache.isTss16 = true
    let link := s.tr.cache.base + (if small then 2 else 4)
    let sel := if small then s.phys16 (link + 2) else s.phys16 (link + 4)
    let stackAddr := s.gdtr.base + zext32 (sel &&& 0xFFF8)
    let q := s.descriptorAt stackAddr
    let f := framed x.2.2.2.1 x.2.2.2.2.1 0 0x9000 x.2.2.2.2.2
    s.pe = true ∧ s.paging = false ∧ Memory.wf s.mem = true ∧ ev.vector.toNat * 8 + 7 ≤ s.idtr.limit.toNat
      ∧ g.access &&& 0x1F ∈ [(6 : Byte), 7, 0xE, 0xF] ∧ bit g.access 7 = true
      ∧ field g.sel 2 14 ≠ 0 ∧ bit g.sel 2 = false ∧ (g.sel &&& 0xFFF8).toNat + 7 ≤ s.gdtr.limit.toNat
      ∧ bit d.attr 4 = true ∧ bit d.attr 3 = true
      ∧ field d.attr 5 2 = 0 ∧ bit d.attr 2 = false ∧ field d.attr 5 2 < s.cpl ∧ bit d.attr 7 = true ∧ bit d.attr 0 = true
      ∧ (if small then 5 else 9) ≤ s.tr.cache.byteLimit
      ∧ s.deviceAt (addrsFrom (s.idtr.base + zext32 ev.vector * 8) 8 ++ addrsFrom codeAddr 8
        ++ addrsFrom link (if small then 4 else 6) ++ addrsFrom stackAddr 8) = false
      ∧ field sel 2 14 ≠ 0 ∧ bit sel 2 = false ∧ (sel &&& 0xFFF8).toNat + 7 ≤ s.gdtr.limit.toNat
      ∧ field sel 0 2 = 0 ∧ field q.attr 5 2 = 0 ∧ bit q.attr 4 = true ∧ bit q.attr 3 = false ∧ bit q.attr 1 = true
      ∧ bit q.attr 7 = true ∧ bit q.attr 0 = true ∧ (if small then zext32 (s.phys16 link) else s.phys32 link) = 0x9000 ∧ q.base = 0
      ∧ (bit g.access 3 = x.2.2.2.1 ∧ bit q.attr 10 = x.2.2.2.2.1 ∧ (if s.vm then 6 else 2) + (ev.slots s).length = x.2.2.2.2.2)
      ∧ (f.1.all fun off => q.inLimit off (if x.2.2.2.1 then 4 else 2)) = true ∧ s.ram f.2 = true := by
  intro x hx y hy
  fin_cases hx <;> fin_cases hy <;> decide +kernel

/-- Gates of vector 13 whose selector is null, outside the GDT, into no LDT, of data, of absent code; from Virtual-86 Mode code of
level 3. -/
theorem witness_ProtectedEntrySameLevel_handler : ∀ x : Byte × Byte, x ∈ [((3 : Byte), (0x9B : Byte)), (0x58, 0x9B), (0x0C, 0x9B), (8, 0x93),
      (8, 0x1B), (8, 0xFB)] →
    let u := poke (poke (tables []) 0x1306A [x.1]) 0x1200D [x.2]
    let s := { u with gdtr := { base := 0x12000, limit := 0x57 }, ldtr := .null 0, eflags := if x.2 = 0xFB then 0x00023002 else 2 }
    let g := s.gateAt (s.idtr.base + zext32 (13 : Byte) * 8)
    s.pe = true ∧ s.paging = false ∧ Memory.wf s.mem = true ∧ (13 : Byte).toNat * 8 + 7 ≤ s.idtr.limit.toNat
      ∧ s.deviceAt (addrsFrom (s.idtr.base + zext32 (13 : Byte) * 8) 8) = false ∧ bit g.access 7 = true
      ∧ g.access &&& 0x1F ∈ [(6 : Byte), 7, 0xE, 0xF]
      ∧ (x.1 ≠ 8 → field g.sel 2 14 = 0 ∨ s.outsideTable g.sel)
      ∧ (x.1 = 8 → ∃ b t, readDescriptor g.sel (.gp (zext32 (g.sel &&& 0xFFFC) + 0)) s = .ok (b, t)
          ∧ (field g.sel 2 14 != 0 && if x.2 = 0x93 then !bit b.attr 3 else bit b.attr 4 && bit b.attr 3
            && if x.2 = 0x1B then !bit b.attr 7 else s.vm && field b.attr 5 2 != 0) = true) := by
  intro x hx
  fin_cases hx <;> refine ⟨by decide +kernel, by decide +kernel, by decide +kernel, by decide +kernel, by decide +kernel,
    by decide +kernel, by decide +kernel, by decide +kernel, fun h => ?_⟩ <;>
    first
      | exact absurd h (by decide)
      | exact of_yields (by decide +kernel)

/-- The inner stack of level 0: a TSS that ends before it, a null SS, one outside the GDT, one of another level, an absent one. -/
theorem witness_ProtectedEntrySameLevel_stack : ∀ x : Byte × Byte × Word32 × Bool, x ∈ [((0x10 : Byte), (0x93 : Byte), (8 : Word32), false),
      (0, 0x93, 9, false), (0x58, 0x93, 9, false), (0x10, 0xF3, 9, true), (0x10, 0x13, 9, true)] →
    let u := poke (poke (user []) 0x40008 [x.1, 0]) 0x12010 [0xFF, 0xFF, 0, 0, 0, x.2.1, 0xCF, 0]
    let s := { u with
      gdtr := { base := 0x12000, limit := 0x57 }, tr := { sel := 0x38, cache := { base := 0x40000, limit := 0, attr := 0x08B } } }
    let s := { s with tr := { s.tr with cache := { s.tr.cache with limit := field x.2.2.1 0 20 } } }
    let g := s.gateAt (s.idtr.base + zext32 (13 : Byte) * 8)
    let d := s.descriptorAt (s.gdtr.base + zext32 (g.sel &&& 0xFFF8))
    let sel := s.phys16 (s.tr.cache.base + 8)
    s.pe = true ∧ s.paging = false ∧ s.vm = false ∧ Memory.wf s.mem = true ∧ (13 : Byte).toNat * 8 + 7 ≤ s.idtr.limit.toNat
      ∧ g.access &&& 0x1F ∈ [(6 : Byte), 7, 0xE, 0xF] ∧ bit g.access 7 = true
      ∧ field g.sel 2 14 ≠ 0 ∧ bit g.sel 2 = false ∧ (g.sel &&& 0xFFF8).toNat + 7 ≤ s.gdtr.limit.toNat
      ∧ bit d.attr 4 = true ∧ bit d.attr 3 = true ∧ bit d.attr 7 = true ∧ bit d.attr 0 = true ∧ bit d.attr 2 = false
      ∧ field d.attr 5 2 = 0 ∧ field d.attr 5 2 < s.cpl ∧ s.tr.cache.isTss16 = false
      ∧ s.tr.cache.byteLimit = x.2.2.1.toNat ∧ s.deviceAt (addrsFrom (s.tr.cache.base + 4) 6) = false
      ∧ (x.2.2.2 = false → x.2.2.1 = 8 ∨ field sel 2 14 = 0 ∨ s.outsideTable sel)
      ∧ (x.2.2.2 = true → field sel 2 14 ≠ 0 ∧ ∃ b t, readDescriptor sel (.gp (zext32 (sel &&& 0xFFFC) + 0)) s = .ok (b, t)
        ∧ (if x.2.1 = 0xF3 then field b.attr 5 2 != 0 else field b.attr 5 2 == 0 && bit b.attr 4 && !bit b.attr 3 && bit b.attr 1
          && !bit b.attr 7) = true) := by
  intro x hx
  fin_cases hx <;> refine ⟨by decide +kernel, by decide +kernel, by decide +kernel, by decide +kernel, by decide +kernel,
    by decide +kernel, by decide +kernel, by decide +kernel, by decide +kernel, by decide +kernel, by decide +kernel, by decide +kernel,
    by decide +kernel, by decide +kernel, by decide +kernel, by decide +kernel, by decide +kernel, by decide +kernel, by decide +kernel,
    by decide +kernel, by decide +kernel, fun h => ?_⟩ <;>
    first
      | exact absurd h (by decide)
      | exact ⟨by decide +kernel, of_yields (by decide +kernel)⟩

/-- Task gates of vector 13: to the TSS of entry 6 of either size, to one that is not present, to a busy one, and with the null
selector and TI = 1. (With a 16-bit TSS the new ESP is half free, and no push is computed.) -/
theorem witness_ProtectedEntrySameLevel_task : ∀ x : Byte × Byte × (SegCache → Bool),
    x ∈ [((0x30 : Byte), (0x89 : Byte), fun d => field d.attr 0 4 == 9 && bit d.attr 7),
      (0x30, 0x09, fun d => field d.attr 0 4 == 9 && !bit d.attr 7), (0x30, 0x01, fun d => field d.attr 0 4 == 1 && !bit d.attr 7),
      (0x30, 0x81, fun d => field d.attr 0 4 == 1 && bit d.attr 7),
      (0x38, 0x89, fun d => field d.attr 0 4 == 0xB),
      (3, 0x89, fun _ => true), (0x34, 0x89, fun _ => true)] →
    let s := poke (poke (if x.2.1 = 0x81 then smallTasks [] else tasks []) 0x13068 [0, 0, x.1, 0, 0, 0x85, 0, 0]) 0x12035 [x.2.1]
    let g := s.gateAt (s.idtr.base + zext32 (13 : Byte) * 8)
    s.pe = true ∧ s.paging = false ∧ Memory.wf s.mem = true ∧ (13 : Byte).toNat * 8 + 7 ≤ s.idtr.limit.toNat
      ∧ s.deviceAt (addrsFrom (s.idtr.base + zext32 (13 : Byte) * 8) 8) = false ∧ bit g.access 7 = true ∧ g.access &&& 0x1F = 5
      ∧ (x.1 = 3 → field g.sel 2 14 = 0) ∧ (x.1 = 0x34 → bit g.sel 2 = true)
      ∧ (x.1 = 0x30 ∨ x.1 = 0x38 → bit g.sel 2 = false ∧ field g.sel 2 14 ≠ 0
        ∧ ∃ b u, readDescriptor g.sel (.gp (zext32 (g.sel &&& 0xFFFC) + 0)) s = .ok (b, u) ∧ (!bit b.attr 4 && x.2.2 b
          && (x.2.1 != 0x81 || answers (taskSwitch g.sel b .event 9 0x10002 0 u))
          && (x.1 != 0x30 || x.2.1 != 0x89 || yields (taskSwitch g.sel b .event 9 0x10002 0 u) fun _ t =>
            let off := t.gpr.esp - 4
            let pas := addrsFrom (t.segs.ss.cache.base + off) 4
            t.stackSize == .s32 && t.segAllows .ss true off 4 && t.ram pas)) = true) := by
  intro x hx
  fin_cases hx <;> refine ⟨by decide +kernel, by decide +kernel, by decide +kernel, by decide +kernel, by decide +kernel,
    by decide +kernel, by decide +kernel, by decide +kernel, by decide +kernel, fun h => ?_⟩ <;>
    first
      | exact ⟨by decide +kernel, by decide +kernel, of_yields (by decide +kernel)⟩
      | exact absurd h (by decide)

end Sys2Proof.Tests
end

section
/-! PROOFS. The registers after reset (70_reset_and_hazards.md R390 to R392) and CPUID (43_model_specific_instructions.md R290
to R292). -/

namespace Sys2Proof.Machine

/-! ### Reset -/

theorem resetOf_tlb_invalid (p : Part) : ∀ e ∈ (State.resetOf p).tlb, e.v = false := by
  intro e he
  have hinv : e = .invalid := List.eq_of_mem_replicate he
  rw [hinv]
  rfl

/-- Of the part, `resetOf` reads only `RESET_STATE` and the initial memory: with the table of R125 it is the machine's own reset state
on another part and another memory. -/
theorem resetOf_eq_reset {p : Part} (h : p.resetState = .default) :
    State.resetOf p = { State.reset with mem := p.memInit, part := p } := by
  unfold State.resetOf
  rw [h]
  rfl

theorem reset_seg {r : SegReg} (h : r ≠ .cs) : State.reset.seg r = .afterReset := by
  cases r with
  | cs => exact absurd rfl h
  | es | ss | ds | fs | gs => rfl

theorem reset_reg {r : Gpr} (h : r ≠ .edx) : State.reset.reg r = 0 := by
  cases r with
  | edx => exact absurd rfl h
  | eax | ecx | ebx | esp | ebp | esi | edi => rfl

/-- The first instruction after reset is fetched in Real Mode from the top of the address space (R391). -/
theorem reset_first_fetch : State.reset.pe = false ∧ State.reset.paging = false ∧ State.reset.cpl = 0
    ∧ State.reset.codeSize = .s16 ∧ State.reset.fetchAddr = 0xFFFFFFF0 := by decide

/-- Settles O10: every register is copied from `RESET_STATE`, and those of a part with the table of R125 are read off
`State.reset`. -/
theorem resetRegisters : Obligations.ResetRegisters := by
  intro p s r
  refine ⟨resetOf_tlb_invalid p, rfl, rfl, rfl, rfl, rfl, rfl, rfl, rfl, rfl, rfl, rfl, rfl, rfl, rfl, rfl, rfl, rfl, rfl, rfl,
    rfl, rfl, rfl, rfl, rfl, fun hdefault => ?_⟩
  have hs : s = { State.reset with mem := p.memInit, part := p } := resetOf_eq_reset hdefault
  have hsegs : ∀ r, r ≠ SegReg.cs → (s.seg r).sel = 0 ∧ (s.seg r).cache.base = 0 ∧ (s.seg r).cache.limit = 0xFFFF := by
    intro r hr
    have hseg : s.seg r = .afterReset := by rw [hs]; exact reset_seg hr
    rw [hseg]
    exact ⟨rfl, rfl, rfl⟩
  have hregs : ∀ r, r ≠ Gpr.edx → s.reg r = 0 := fun r hr => by rw [hs]; exact reset_reg hr
  clear_value s
  subst hs
  exact ⟨rfl, rfl, rfl, rfl, rfl, rfl, hsegs, rfl, rfl, rfl, rfl, rfl, rfl, rfl, rfl, rfl, rfl, rfl, rfl, rfl, rfl, rfl, rfl,
    rfl, hregs, rfl, reset_first_fetch⟩

/-! ### Instructions that go on to the next one -/

/-- The end of an instruction that leaves the mode and CS alone: the new EIP is the one `eipPlus` gives in the state it began in. -/
theorem advance_eq {s t : State} (i : Instr) (h0 : t.cr0 = s.cr0) (hf : t.vm = s.vm) (hc : t.segs.cs = s.segs.cs) :
    s.advance t i = { t with
      eip := s.eipPlus i.length, eflags := clearRf t.eflags, pending := { t.pending with singleStep := s.tf } } := by
  rw [← advance_eip_of_eq i h0 hf hc]
  rfl

/-- An instruction that writes only general registers completes with what it wrote. -/
theorem advance_gprs (s : State) (g : Gprs) (i : Instr) : s.advance { s with gpr := g } i = { s.completed i with gpr := g } :=
  advance_eq i rfl rfl rfl

/-! ### CPUID -/

theorem exec_cpuid (p : List Prefix) (s : State) : exec (.cpuid p) s = execCpuid p s := rfl

/-- CPUID on a part that has it, with ID = 1 (R290). -/
theorem execCpuid_next {p : List Prefix} {s : State} (hp : Plain p) (hpart : s.part.features.cpuid = true)
    (hid : s.idf = true) :
    execCpuid p s = .next { s.completed (.cpuid p) with gpr := (s.setCpuid (cpuidTable s.part s.gpr.eax)).gpr } := by
  refine runInstr_ok (t := s.setCpuid (cpuidTable s.part s.gpr.eax)) hp ?_ (advance_gprs s _ _)
  simp [exec_bind, hpart, hid]

/-- CPUID on a part that has it, with ID = 0 (D13). -/
theorem execCpuid_refused {p : List Prefix} {s : State} (hp : Plain p) (hpart : s.part.features.cpuid = true)
    (hid : s.idf = false) : execCpuid p s = .refused .cpuidIdClear :=
  runInstr_refused hp (by simp [exec_bind, hpart, hid])

/-- A bit of a vector written as a number, by division. -/
theorem bit_ofNat_eq {w n i : Nat} {b : Bool} (hi : i < w) (h : n / 2 ^ i % 2 = b.toNat) : bit (BitVec.ofNat w n) i = b := by
  rw [bit, BitVec.getLsbD_ofNat, Nat.testBit_eq_decide_div_mod_eq, h]
  cases b <;> simp [hi]

/-- The flags of input 1 and the options they stand for (R292). -/
theorem bit_featureFlags (f : Features) :
    ∀ x ∈ [(0, f.fpu), (1, f.vme && f.pvi), (2, f.de), (3, f.pse), (4, f.rdtsc && f.tsd), (5, f.rdmsr && f.wrmsr), (7, f.mce),
      (8, f.cx8), (9, f.apic), (13, f.pge), (23, f.mmx)], bit (featureFlags f) x.1 = x.2 := by
  have b0 := f.fpu.toNat_le
  have b1 := (f.vme && f.pvi).toNat_le
  have b2 := f.de.toNat_le
  have b3 := f.pse.toNat_le
  have b4 := (f.rdtsc && f.tsd).toNat_le
  have b5 := (f.rdmsr && f.wrmsr).toNat_le
  have b7 := f.mce.toNat_le
  have b8 := f.cx8.toNat_le
  have b9 := f.apic.toNat_le
  have b13 := f.pge.toNat_le
  have b23 := f.mmx.toNat_le
  simp only [List.forall_mem_cons, List.not_mem_nil, false_imp_iff, implies_true, and_true]
  and_intros <;> exact bit_ofNat_eq (by decide) (by omega)

/-- A flag that belongs to an option is not one of the part's other flags. -/
theorem bit_identification_edx (p : Part) {i : Nat} (hi : bit featureFlagBits i = true) :
    bit (identification p).edx i = bit (featureFlags p.features) i := by
  unfold bit at hi ⊢
  simp [identification, hi]

/-- Settles O52: CPUID by its two guards, and the row of input 1 flag by flag. -/
theorem processorIdentified : Obligations.ProcessorIdentified := by
  refine ⟨fun p s hp hpart => ⟨fun hid => ?_, fun hid => ?_⟩, by decide, by decide, fun part => ?_⟩
  · exact (exec_cpuid p s).trans (execCpuid_next hp hpart hid)
  · exact (exec_cpuid p s).trans (execCpuid_refused hp hpart hid)
  · have hflag : ∀ {i : Nat} {b : Bool}, bit featureFlagBits i = true → bit (featureFlags part.features) i = b →
        bit (cpuidTable part 1).edx i = b := fun hi hb => (bit_identification_edx part hi).trans hb
    have hoptions := bit_featureFlags part.features
    simp only [List.forall_mem_cons] at hoptions
    obtain ⟨h0, h1, h2, h3, h4, h5, h7, h8, h9, h13, h23, -⟩ := hoptions
    exact ⟨rfl, rfl, rfl, hflag (by decide) h0, hflag (by decide) h1, hflag (by decide) h2, hflag (by decide) h3,
      hflag (by decide) h4, hflag (by decide) h5, hflag (by decide) h7, hflag (by decide) h8, hflag (by decide) h9,
      hflag (by decide) h13, hflag (by decide) h23⟩

end Sys2Proof.Machine
end

section
/-! PROOFS. What one step can do to the state: a relation that the primitive updates keep is kept by every instruction and by
the whole step. -/

namespace Sys2Proof.Machine

/-! ### The primitive updates of a step -/

/-- A relation that holds over every update a step makes, but those of CR0 and the debug registers that an instruction asks for
(`WritesKept`) and a reset. -/
structure StepClosed (R : State → State → Prop) : Prop extends RaiseClosed R, ReturnClosed R where
  gprs : ∀ s g, R s { s with gpr := g }
  gdtr : ∀ s g, R s { s with gdtr := g }
  idtr : ∀ s g, R s { s with idtr := g }
  tr : ∀ s g, R s { s with tr := g }
  cr2 : ∀ s v, R s { s with cr2 := v }
  cr3 : ∀ s v, R s { s with cr3 := v &&& cr3Kept }
  cr4 : ∀ s v, v &&& ~~~ cr4Mask s.part.features = 0 → R s { s with cr4 := v }
  tr6 : ∀ s v, R s { s with tr6 := v &&& tr6Named }
  tr7 : ∀ s v, R s { s with tr7 := v &&& tr7Named }
  tr6Found : ∀ s e, R s { s with tr6 := foundTr6 s.tr6 e }
  tr7Found : ∀ s phys ht rep, R s { s with tr7 := tr7Of phys ht rep }
  msr : ∀ s m, R s { s with msr := m }
  env : ∀ s e, R s { s with env := e }
  activity : ∀ s a, R s { s with activity := a }
  nmiBlocked : ∀ s b, R s { s with nmiBlocked := b }
  goOn : ∀ s eip, R s (s.jumpTo eip (clearRf s.eflags))
  report : ∀ s, R s s.reportPending

/-- What the step needs between and around instructions: the updates of the events, and that taking an event or an exception keeps
the relation. -/
structure CycleClosed (R : State → State → Prop) : Prop extends OperandClosed R where
  msr : ∀ s m, R s { s with msr := m }
  env : ∀ s e, R s { s with env := e }
  activity : ∀ s a, R s { s with activity := a }
  nmiBlocked : ∀ s b, R s { s with nmiBlocked := b }
  report : ∀ s, R s s.reportPending
  takeEvent : ∀ ev s, KeepsFrom R s (takeEvent ev s)
  takeException : ∀ e s, KeepsFrom R s (takeException e s)

variable {R : State → State → Prop}

theorem StepClosed.toCycleClosed (h : StepClosed R) : CycleClosed R where
  toOperandClosed := h.toOperandClosed
  msr := h.msr
  env := h.env
  activity := h.activity
  nmiBlocked := h.nmiBlocked
  report := h.report
  takeEvent := keepsFrom_takeEvent h.toRaiseClosed
  takeException := keepsFrom_takeException h.toRaiseClosed

/-- The writes of CR0 and of the debug registers that instruction `i` asks for keep `R` (41 R243, R247, R249; 42 R261). -/
def WritesKept (R : State → State → Prop) : Instr → Prop
  | .clts _ => ∀ s, R s { s with cr0 := setBit s.cr0 3 false }
  | .lmsw _ _ => ∀ s w, R s (s.setCr0 (lmswCr0 s.cr0 w))
  | .movToCr _ _ n _ => n = 0 → ∀ s v, (bit v 31 && !bit v 0) = false → (!bit v 30 && bit v 29) = false → R s (s.setCr0 (fixCr0 v))
  | .movToDr _ _ n _ => ∀ s v, R s (s.writeDr n v)
  | _ => True

theorem StepClosed.stepped (h : StepClosed R) (s : State) (b : Bool) : R s (s.stepped b) := h.pending s _

theorem StepClosed.advance (h : StepClosed R) (s t : State) (i : Instr) : R t (s.advance t i) :=
  h.frame.trans _ _ _ (h.goOn t _) (h.stepped _ s.tf)

theorem StepClosed.flush (h : StepClosed R) (s : State) : R s s.flushTlb := h.tlb s _ (List.length_map ..)

theorem CycleClosed.afterInstrHits (h : CycleClosed R) (s : State) : R s s.afterInstrHits :=
  h.frame.trans _ _ _ (h.pending s _) (h.draws { s with pending := s.afterInstrHits.pending } _)

theorem CycleClosed.tick (h : CycleClosed R) (s : State) : R s s.tick :=
  h.frame.trans _ _ _ (h.msr s _) (h.draws { s with msr := s.tick.msr } _)

theorem CycleClosed.loadMachineCheck (h : CycleClosed R) (s : State) (m : MachineCheck) : R s (s.loadMachineCheck m) :=
  h.frame.trans _ _ _ (h.msr s _) (h.env { s with msr := (s.loadMachineCheck m).msr } _)

/-! ### The outcome of an instruction -/

theorem keepsFrom_next {s t : State} (h : R s t) : KeepsFrom R s (.next t) := by
  intro u hu
  cases hu
  exact h

theorem keepsFrom_refused (s : State) (r : Refusal) : KeepsFrom R s (.refused r) := by
  intro t ht
  cases ht

theorem keepsFrom_trans (h : IsFrame R) {s t : State} {o : Host.Outcome State Fault Refusal} (hst : R s t)
    (ho : KeepsFrom R t o) : KeepsFrom R s o := fun u hu => h.trans s t u hst (ho u hu)

theorem keepsFrom_settle_error (h : CycleClosed R) (s : State) (e : Stop) : KeepsFrom R s (settle s (.error e)) := by
  cases e with
  | exc e => exact h.takeException e s
  | refused r => exact keepsFrom_refused s r

/-- An instruction that goes on to the next one keeps what its body keeps. -/
theorem keepsFrom_runInstr_of_keeps (h : StepClosed R) (i : Instr) {body : Exec Unit} (hb : Keeps R body) (s : State) :
    KeepsFrom R s (runInstr i body s) :=
  keepsFrom_runInstr h.toRaiseClosed i body s fun t ht => h.frame.trans _ _ _ (hb s _ t ht) (h.advance s t i)

/-- An instruction that writes EIP itself keeps what its body keeps. -/
theorem keepsFrom_runTransfer_of_keeps (h : StepClosed R) (i : Instr) {body : Exec Unit} (hb : Keeps R body) (s : State) :
    KeepsFrom R s (runTransfer i body s) :=
  keepsFrom_runTransfer h.toRaiseClosed i body s fun t ht => h.frame.trans _ _ _ (hb s _ t ht) (h.stepped t _)

/-! ### Descriptor tables -/

theorem keeps_requireMemory (h : IsFrame R) (o : RmOp) : Keeps R (requireMemory o) := keeps_raiseIf h _ _

theorem keeps_requireProtected (h : IsFrame R) : Keeps R requireProtected :=
  keeps_bind h (keeps_get h) fun _ => keeps_raiseIf h _ _

theorem keeps_storeTable (h : StepClosed R) (p : List Prefix) (o : RmOp) (t : TableReg) :
    Keeps R (do requireMemory o; writeTable p o t) :=
  keeps_bind h.frame (keeps_requireMemory h.frame o) fun _ => keeps_writeTable h.toOperandClosed p o t

theorem keeps_loadTable (h : StepClosed R) (p : List Prefix) (o : RmOp) {f : State → TableReg → State}
    (hf : ∀ s t, R s (f s t)) :
    Keeps R (do requireMemory o; requirePrivilege; let t ← readTable p o; modify fun s => f s t) := by
  refine keeps_bind h.frame (keeps_requireMemory h.frame o) fun _ => ?_
  refine keeps_bind h.frame (keeps_requirePrivilege h.frame) fun _ => ?_
  exact keeps_bind h.frame (keeps_readTable h.toOperandClosed p o) fun t => keeps_modify fun s => hf s t

theorem keeps_storeSelector (h : StepClosed R) (p : List Prefix) (o : RmOp) (v : Word16) :
    Keeps R (do requireProtected; writeRm16 p v o) :=
  keeps_bind h.frame (keeps_requireProtected h.frame) fun _ => keeps_writeRm16 h.toOperandClosed (fun s _ _ => h.gprs s _) p v o

theorem keeps_loadLdt (h : StepClosed R) (sel : Word16) : Keeps R (loadLdt sel) := by
  refine keeps_ite (keeps_modify fun s => h.ldtr s _) ?_
  refine keeps_bind h.frame (keeps_raiseIf h.frame _ _) fun _ => ?_
  refine keeps_bind h.frame (keeps_readDescriptor h.toMmuClosed _ _) fun d => ?_
  refine keeps_bind h.frame (keeps_raiseIf h.frame _ _) fun _ => ?_
  refine keeps_bind h.frame (keeps_raiseIf h.frame _ _) fun _ => ?_
  exact keeps_modify fun s => h.ldtr s _

theorem keeps_loadTask (h : StepClosed R) (sel : Word16) : Keeps R (loadTask sel) := by
  refine keeps_bind h.frame (keeps_raiseIf h.frame _ _) fun _ => ?_
  refine keeps_bind h.frame (keeps_raiseIf h.frame _ _) fun _ => ?_
  refine keeps_bind h.frame (keeps_readDescriptor h.toMmuClosed _ _) fun d => ?_
  refine keeps_bind h.frame (keeps_raiseIf h.frame _ _) fun _ => ?_
  refine keeps_bind h.frame (keeps_raiseIf h.frame _ _) fun _ => ?_
  refine keeps_bind h.frame (keeps_markBusy h.toMmuClosed _ _) fun _ => ?_
  exact keeps_modify fun s => h.tr s _

theorem keeps_loadSelector (h : StepClosed R) (p : List Prefix) (o : RmOp) {load : Word16 → Exec Unit}
    (hl : ∀ sel, Keeps R (load sel)) :
    Keeps R (do requireProtected; requirePrivilege; let sel ← readRm16 p o; load sel) := by
  refine keeps_bind h.frame (keeps_requireProtected h.frame) fun _ => ?_
  refine keeps_bind h.frame (keeps_requirePrivilege h.frame) fun _ => ?_
  exact keeps_bind h.frame (keeps_readRm16 h.toOperandClosed p o) hl

/-! ### Control registers -/

/-- The body of an instruction that makes two checks and then one update. -/
theorem keeps_checked (h : IsFrame R) {m n : Exec Unit} {k : Exec Unit} (hm : Keeps R m) (hn : Keeps R n) (hk : Keeps R k) :
    Keeps R (do m; n; k) := keeps_bind h hm fun _ => keeps_bind h hn fun _ => hk

theorem keeps_writeCr0 (v : Word32)
    (hw : ∀ s, (bit v 31 && !bit v 0) = false → (!bit v 30 && bit v 29) = false → R s (s.setCr0 (fixCr0 v))) :
    Keeps R (writeCr0 v) := by
  intro s a t ht
  obtain ⟨_, s1, h1, hrest⟩ := exec_bind_ok ht
  obtain ⟨hpg, hs1⟩ := raiseIf_ok h1
  obtain ⟨_, s2, h2, hlast⟩ := exec_bind_ok hrest
  obtain ⟨hnw, hs2⟩ := raiseIf_ok h2
  rw [hs2, hs1] at hlast
  cases hlast
  exact hw s hpg hnw

theorem keeps_writeCr3 (h : StepClosed R) (v : Word32) : Keeps R (writeCr3 v) :=
  keeps_modify fun s => h.frame.trans _ _ _ (h.flush s) (h.cr3 s.flushTlb v)

theorem keeps_writeCr4 (h : StepClosed R) (v : Word32) : Keeps R (writeCr4 v) := by
  refine keeps_get_bind fun s a t ht => ?_
  obtain ⟨_, s1, h1, hlast⟩ := exec_bind_ok ht
  obtain ⟨hmask, hs1⟩ := raiseIf_ok h1
  have hv : v &&& ~~~ cr4Mask s.part.features = 0 := by simpa using hmask
  rw [hs1] at hlast
  cases hlast
  dsimp only
  split
  · exact h.frame.trans _ _ _ (h.flush s) (h.cr4 s.flushTlb v hv)
  · exact h.cr4 s v hv

theorem keeps_writeCr (h : StepClosed R) (n : BitVec 3) (v : Word32)
    (hw : n = 0 → ∀ s, (bit v 31 && !bit v 0) = false → (!bit v 30 && bit v 29) = false → R s (s.setCr0 (fixCr0 v))) :
    Keeps R (writeCr n v) := by
  unfold writeCr
  split
  · next hn => exact keeps_writeCr0 v (hw hn)
  split
  · exact keeps_modify fun s => h.cr2 s v
  split
  · exact keeps_writeCr3 h v
  · exact keeps_writeCr4 h v

theorem keeps_lmsw (h : StepClosed R) (p : List Prefix) (o : RmOp) (hw : ∀ s w, R s (s.setCr0 (lmswCr0 s.cr0 w))) :
    Keeps R (do requirePrivilege; let w ← readRm16 p o; modify fun s => s.setCr0 (lmswCr0 s.cr0 w)) := by
  refine keeps_bind h.frame (keeps_requirePrivilege h.frame) fun _ => ?_
  exact keeps_bind h.frame (keeps_readRm16 h.toOperandClosed p o) fun w => keeps_modify fun s => hw s w

/-! ### Debug and test registers -/

theorem keeps_checkDebugAccess (h : IsFrame R) (n : BitVec 3) : Keeps R (checkDebugAccess n) := by
  refine keeps_bind h (keeps_get h) fun s => ?_
  refine keeps_bind h (keeps_raiseIf h _ _) fun _ => ?_
  exact keeps_bind h (keeps_requirePrivilege h) fun _ => keeps_raiseIf h _ _

theorem keeps_tlbWrite (h : StepClosed R) : Keeps R tlbWrite := by
  refine keeps_bind h.frame (keeps_get h.frame) fun s => ?_
  refine keeps_bind h.frame (keeps_refuseIf h.frame _ _) fun _ => ?_
  refine keeps_bind h.frame (keeps_draw h.toMmuClosed) fun k => ?_
  exact keeps_setTlb h.toMmuClosed _ _ _

theorem keeps_tlbRead (h : StepClosed R) : Keeps R tlbRead := by
  refine keeps_get_bind fun s a t ht => ?_
  obtain ⟨_, s1, h1, hrest⟩ := exec_bind_ok ht
  obtain ⟨-, hs1⟩ := refuseIf_ok h1
  rw [hs1] at hrest
  cases hfound : s.tlbFound with
  | cons b bs =>
    rw [hfound] at hrest
    cases hrest
    exact h.frame.trans _ _ _ (h.tr6Found s (s.tlbEntry b (tr6Linear s.tr6))) (h.tr7Found _ _ _ _)
  | nil =>
    rw [hfound] at hrest
    exact keeps_bind h.frame (keeps_draw h.toMmuClosed) (fun k => keeps_modify fun t => h.tr7Found t _ _ _) s a t hrest

theorem keeps_writeTestReg (h : StepClosed R) (n : BitVec 3) (v : Word32) : Keeps R (writeTestReg n v) := by
  refine keeps_ite (keeps_modify fun s => h.tr7 s v) ?_
  exact keeps_bind h.frame (keeps_modify fun s => h.tr6 s v) fun _ => keeps_ite (keeps_tlbRead h) (keeps_tlbWrite h)

/-! ### Model-specific registers -/

theorem keeps_requireMsrAccess (h : IsFrame R) (present : Bool) : Keeps R (requireMsrAccess present) := by
  refine keeps_bind h (keeps_get h) fun s => ?_
  refine keeps_bind h (keeps_raiseIf h _ _) fun _ => ?_
  refine keeps_bind h (keeps_refuseIf h _ _) fun _ => ?_
  exact keeps_bind h (keeps_requirePrivilege h) fun _ => keeps_raiseIf h _ _

/-! ### Far CALL -/

theorem keeps_callReal (h : StepClosed R) (z : OpSize) (sel : Word16) (off next : Word32) : Keeps R (callReal z sel off next) := by
  refine keeps_bind h.frame (keeps_get h.frame) fun s => ?_
  refine keeps_bind h.frame (keeps_push h.toEntryClosed h.toOperandClosed z _) fun _ => ?_
  refine keeps_bind h.frame (keeps_push h.toEntryClosed h.toOperandClosed z _) fun _ => ?_
  exact keeps_modify fun t => h.frame.trans _ _ _ (h.loadReal t .cs sel) (h.goOn (t.loadReal .cs sel) off)

theorem keepsIf_callTask (h : StepClosed R) (sel : Word16) (d : SegCache) (next : Word32) :
    KeepsIf Protected R (callTask sel d next) :=
  keepsIf_bind h.frame (keepsIf_protected (keeps_get h.toMmuClosed.andCr0.frame)) fun _ =>
    keepsIf_taskSwitch h.toTaskClosed _ _ _ _ _ _

theorem keepsIf_callTss (h : StepClosed R) (sel : Word16) (d : SegCache) (next : Word32) :
    KeepsIf Protected R (callTss sel d next) := by
  have hm := h.toMmuClosed.andCr0
  refine keepsIf_bind h.frame (keepsIf_protected (keeps_raiseIf hm.frame _ _)) fun _ => ?_
  refine keepsIf_bind h.frame (keepsIf_protected (keeps_raiseIf hm.frame _ _)) fun _ => ?_
  exact keepsIf_callTask h sel d next

theorem keepsIf_callGate (h : StepClosed R) (sel : Word16) (g : SegCache) (next : Word32) :
    KeepsIf Protected R (callGate sel g next) := by
  have hm := h.toMmuClosed.andCr0
  refine keepsIf_bind h.frame (keepsIf_protected (keeps_raiseIf hm.frame _ _)) fun _ => ?_
  refine keepsIf_bind h.frame (keepsIf_protected (keeps_findTss hm _ _ _ _)) fun d => ?_
  exact keepsIf_callTask h _ d next

theorem keepsIf_ite {α : Type} {P : State → Prop} {c : Prop} [Decidable c] {m n : Exec α} (hm : KeepsIf P R m)
    (hn : KeepsIf P R n) : KeepsIf P R (if c then m else n) := by
  split
  · exact hm
  · exact hn

theorem keepsIf_callProtected (h : StepClosed R) (sel : Word16) (next : Word32) :
    KeepsIf Protected R (callProtected sel next) := by
  have hm := h.toMmuClosed.andCr0
  refine keepsIf_bind h.frame (keepsIf_protected (keeps_raiseIf hm.frame _ _)) fun _ => ?_
  refine keepsIf_bind h.frame (keepsIf_protected (keeps_readDescriptor hm _ _)) fun d => ?_
  refine keepsIf_bind h.frame (keepsIf_protected (keeps_get hm.frame)) fun s => ?_
  refine keepsIf_ite ?_ (keepsIf_of_keeps (keeps_ite (keeps_refuse _) (keeps_raise _)))
  refine keepsIf_bind h.frame (keepsIf_protected (keeps_raiseIf hm.frame _ _)) fun _ => ?_
  exact keepsIf_ite (keepsIf_callGate h sel d next) (keepsIf_callTss h sel d next)

theorem State.pe_of_prot {s : State} (h : s.prot = true) : s.pe = true := by
  unfold State.prot at h
  exact (Bool.and_eq_true_iff.mp h).1

theorem keeps_callFar (h : StepClosed R) (z : OpSize) (sel : Word16) (off next : Word32) : Keeps R (callFar z sel off next) := by
  refine keeps_get_bind fun s a t ht => ?_
  split at ht
  · next hp => exact keepsIf_callProtected h sel next s a t (State.pe_of_prot hp) ht
  · exact keeps_callReal h z sel off next s a t ht

theorem keeps_callMem (h : StepClosed R) (p : List Prefix) (o : RmOp) (z : OpSize) (next : Word32) :
    Keeps R (do raiseIf (isRegister o) .ud; let (off, sel) ← readFar p o; callFar z sel off next) := by
  refine keeps_bind h.frame (keeps_raiseIf h.frame _ _) fun _ => ?_
  exact keeps_bind h.frame (keeps_readFar h.toOperandClosed p o) fun x => keeps_callFar h z x.2 x.1 next

/-! ### INT3, WAIT and ESC -/

theorem keepsFrom_execInt3 (h : CycleClosed R) (htrap : ∀ ev s, KeepsFrom R s (takeTrap ev s)) (p : List Prefix) (s : State) :
    KeepsFrom R s (execInt3 p s) := by
  unfold execInt3
  rw [exec_run]
  split
  · next t ht => exact keepsFrom_trans h.frame (keeps_checkPrefixes h.frame p s _ t ht) (htrap _ t)
  · exact keepsFrom_settle_error h s _

theorem CycleClosed.waitHere (h : CycleClosed R) (s : State) : R s s.waitHere := h.activity s _

theorem keepsFrom_execWait (h : CycleClosed R) {p : List Prefix} {s : State}
    (hrun : KeepsFrom R s (runInstr (.wait p) (pure ()) s)) : KeepsFrom R s (execWait p s) := by
  unfold execWait
  split
  · exact keepsFrom_settle_error h s _
  split
  · exact hrun
  · exact h.takeException _ s
  · exact keepsFrom_next (h.waitHere s)

theorem keepsFrom_execEsc (h : CycleClosed R) (p : List Prefix) (x g : BitVec 3) (o : RmOp) (s : State) :
    KeepsFrom R s (execEsc p x g o s) := by
  unfold execEsc
  split
  · exact keepsFrom_settle_error h s _
  split
  · exact keepsFrom_refused s _
  · exact h.takeException _ s
  · exact keepsFrom_next (h.waitHere s)

/-! ### Every instruction -/

/-- What an instruction can do, with the exception it may take. -/
theorem keepsFrom_exec (h : StepClosed R) {i : Instr} (hw : WritesKept R i) (s : State) : KeepsFrom R s (exec i s) := by
  have hf := h.frame
  cases i with
  | sgdt p o => exact keepsFrom_runInstr_of_keeps h _ (keeps_storeTable h p o s.gdtr) s
  | sidt p o => exact keepsFrom_runInstr_of_keeps h _ (keeps_storeTable h p o s.idtr) s
  | lgdt p o => exact keepsFrom_runInstr_of_keeps h _ (keeps_loadTable h p o h.gdtr) s
  | lidt p o => exact keepsFrom_runInstr_of_keeps h _ (keeps_loadTable h p o h.idtr) s
  | sldt p o => exact keepsFrom_runInstr_of_keeps h _ (keeps_storeSelector h p o s.ldtr.sel) s
  | str p o => exact keepsFrom_runInstr_of_keeps h _ (keeps_storeSelector h p o s.tr.sel) s
  | lldt p o => exact keepsFrom_runInstr_of_keeps h _ (keeps_loadSelector h p o (keeps_loadLdt h)) s
  | ltr p o => exact keepsFrom_runInstr_of_keeps h _ (keeps_loadSelector h p o (keeps_loadTask h)) s
  | movFromCr p mod n r =>
    exact keepsFrom_runInstr_of_keeps h _ (keeps_checked hf (keeps_raiseIf hf _ _) (keeps_requirePrivilege hf)
      (keeps_modify fun s => h.gprs s _)) s
  | movToCr p mod n r =>
    exact keepsFrom_runInstr_of_keeps h _ (keeps_checked hf (keeps_raiseIf hf _ _) (keeps_requirePrivilege hf)
      (keeps_writeCr h n (s.reg r) fun hn t => hw hn t (s.reg r))) s
  | smsw p o =>
    exact keepsFrom_runInstr_of_keeps h _ (keeps_writeRm16 h.toOperandClosed (fun s _ _ => h.gprs s _) p (low16 s.cr0) o) s
  | lmsw p o => exact keepsFrom_runInstr_of_keeps h _ (keeps_lmsw h p o hw) s
  | clts p => exact keepsFrom_runInstr_of_keeps h _ (keeps_bind hf (keeps_requirePrivilege hf) fun _ => keeps_modify hw) s
  | movFromDr p mod n r =>
    exact keepsFrom_runInstr_of_keeps h _ (keeps_bind hf (keeps_checkDebugAccess hf n) fun _ =>
      keeps_modify fun s => h.gprs s _) s
  | movToDr p mod n r =>
    exact keepsFrom_runInstr_of_keeps h _ (keeps_bind hf (keeps_checkDebugAccess hf n) fun _ =>
      keeps_modify fun s => hw s (s.reg r)) s
  | movFromTr p mod n r =>
    exact keepsFrom_runInstr_of_keeps h _ (keeps_checked hf (keeps_refuseIf hf _ _) (keeps_requirePrivilege hf)
      (keeps_modify fun s => h.gprs s _)) s
  | movToTr p mod n r =>
    exact keepsFrom_runInstr_of_keeps h _ (keeps_checked hf (keeps_refuseIf hf _ _) (keeps_requirePrivilege hf)
      (keeps_writeTestReg h n (s.reg r))) s
  | int3 p => exact keepsFrom_execInt3 h.toCycleClosed (keepsFrom_takeTrap h.toRaiseClosed h.stepped) p s
  | wrmsr p =>
    exact keepsFrom_runInstr_of_keeps h _ (keeps_checked hf (keeps_requireMsrAccess hf _) (keeps_raiseIf hf _ _)
      (keeps_modify fun s => h.msr s _)) s
  | rdtsc p =>
    exact keepsFrom_runInstr_of_keeps h _ (keeps_checked hf (keeps_raiseIf hf _ _) (keeps_raiseIf hf _ _)
      (keeps_modify fun s => h.gprs s _)) s
  | rdmsr p =>
    exact keepsFrom_runInstr_of_keeps h _ (keeps_bind hf (keeps_requireMsrAccess hf _) fun _ =>
      keeps_modify fun s => h.gprs s _) s
  | rdpmc p =>
    exact keepsFrom_runInstr_of_keeps h _ (keeps_checked hf (keeps_raiseIf hf _ _) (keeps_raiseIf hf _ _)
      (keeps_bind hf (keeps_raiseIf hf _ _) fun _ => keeps_modify fun s => h.gprs s _)) s
  | cpuid p =>
    exact keepsFrom_runInstr_of_keeps h _ (keeps_checked hf (keeps_raiseIf hf _ _) (keeps_refuseIf hf _ _)
      (keeps_modify fun s => h.gprs s _)) s
  | callPtr p f => exact keepsFrom_runTransfer_of_keeps h _ (keeps_callFar h _ _ _ _) s
  | callMem p o => exact keepsFrom_runTransfer_of_keeps h _ (keeps_callMem h p o _ _) s
  | iret p => exact keepsFrom_runTransfer_of_keeps h _ (keeps_returnFromException h.toReturnClosed _ _) s
  | wait p => exact keepsFrom_execWait h.toCycleClosed (keepsFrom_runInstr_of_keeps h _ (keeps_pure hf ()) s)
  | esc p x g o => exact keepsFrom_execEsc h.toCycleClosed p x g o s

/-! ### The whole step -/

/-- An answer of the fetch: some number of bytes inside the code segment was read, and they decode to the instruction. -/
theorem fetchFrom_ok {more n : Nat} {s t : State} {i : Instr} (h : fetchFrom more n s = .ok (i, t)) :
    ∃ m bs rest, fetchBytes m s = .ok (bs, t) ∧ decode s.codeSize bs = .ok (i, rest) := by
  induction more generalizing n with
  | zero =>
    unfold fetchFrom at h
    split at h
    · cases h
    next bs u hb =>
    split at h
    · next hd => cases h; exact ⟨n, bs, _, hb, hd⟩
    · cases h
  | succ more ih =>
    unfold fetchFrom at h
    split at h
    · cases h
    next bs u hb =>
    split at h
    · next hd => cases h; exact ⟨n, bs, _, hb, hd⟩
    · exact ih h
    · cases h

theorem keeps_fetchBytes (h : MmuClosed R) (n : Nat) : Keeps R (fetchBytes n) := by
  refine keeps_bind h.frame (keeps_get h.frame) fun s => ?_
  refine keeps_bind h.frame (keeps_raiseIf h.frame _ _) fun _ => ?_
  refine keeps_bind h.frame (keeps_translateRange h _ _ _) fun pas => ?_
  exact keeps_bind h.frame (keeps_get h.frame) fun t => keeps_pure h.frame _

theorem keeps_fetchInstr (h : MmuClosed R) : Keeps R fetchInstr := by
  intro s i t ht
  obtain ⟨m, bs, rest, hb, -⟩ := fetchFrom_ok ht
  exact keeps_fetchBytes h m s bs t hb

/-- The next instruction, with the breakpoints and the fetch before it. -/
theorem keepsFrom_runNext (h : CycleClosed R) {s : State}
    (hexec : ∀ i u, fetchInstr s.afterInstrHits = .ok (i, u) → KeepsFrom R u (exec i u)) : KeepsFrom R s (runNext s) := by
  unfold runNext
  rw [exec_run]
  refine keepsFrom_trans h.frame (h.afterInstrHits s) ?_
  split
  · exact h.takeException _ _
  split
  · next i t ht =>
    exact keepsFrom_trans h.frame (keeps_fetchInstr h.toMmuClosed _ i t ht) (hexec i t ht)
  · exact keepsFrom_settle_error h _ _

theorem keepsFrom_takeNmi (h : CycleClosed R) (s : State) : KeepsFrom R s (takeNmi s) := by
  have henv := h.env s { s.env with nmi := false }
  have hblocked := h.frame.trans _ _ _ henv (h.nmiBlocked _ true)
  exact keepsFrom_trans h.frame (h.frame.trans _ _ _ hblocked (h.activity _ .running)) (h.takeEvent _ _)

theorem keepsFrom_takeIntr (h : CycleClosed R) (s : State) (v : Byte) : KeepsFrom R s (takeIntr s v) :=
  keepsFrom_trans h.frame (h.frame.trans _ _ _ (h.env s { s.env with intr := none }) (h.activity _ .running))
    (h.takeEvent _ _)

theorem keepsFrom_boundary (h : CycleClosed R) {s : State}
    (hexec : ∀ i u, fetchInstr s.beginNext.afterInstrHits = .ok (i, u) → KeepsFrom R u (exec i u)) : KeepsFrom R s (boundary s) := by
  unfold boundary
  split
  · exact keepsFrom_trans h.frame (h.report s) (h.takeEvent _ _)
  split
  · exact keepsFrom_takeNmi h s
  split
  · exact keepsFrom_takeIntr h s _
  split
  · exact keepsFrom_next (h.frame.refl s)
  · exact keepsFrom_trans h.frame (h.pending s .none) (keepsFrom_runNext h hexec)

theorem keepsFrom_alive (h : CycleClosed R) {s : State}
    (hexec : ∀ i u, fetchInstr s.fetchState = .ok (i, u) → KeepsFrom R u (exec i u)) : KeepsFrom R s (alive s) := by
  unfold State.fetchState at hexec
  unfold alive
  cases hm : s.env.machineCheck with
  | none =>
    rw [hm] at hexec
    exact keepsFrom_boundary h hexec
  | some m =>
    rw [hm] at hexec
    refine keepsFrom_trans h.frame (h.loadMachineCheck s m) ?_
    dsimp only
    split
    · exact keepsFrom_trans h.frame (h.activity _ .running) (h.takeEvent _ _)
    · exact keepsFrom_boundary h hexec

theorem keepsFrom_shutDownStep (h : CycleClosed R) (s : State) : KeepsFrom R s (shutDownStep s) := by
  unfold shutDownStep
  split
  · exact keepsFrom_takeNmi h s
  · intro t ht
    cases ht

theorem keepsFrom_ticked (h : CycleClosed R) {s : State} {o : Host.Outcome State Fault Refusal} (ho : KeepsFrom R s o) :
    KeepsFrom R s (ticked o) := by
  intro t ht
  cases o with
  | next u =>
    cases ht
    exact h.frame.trans _ _ _ (ho u rfl) (h.tick u)
  | fault f => cases ht
  | refused r => cases ht

/-- What a step can do: a reset, an event, or the instruction that it fetches. -/
theorem keepsFrom_step (h : CycleClosed R) {s : State} (hreset : s.env.reset = true → R s s.afterReset)
    (hexec : s.env.reset = false → ∀ i u, fetchInstr s.fetchState = .ok (i, u) → KeepsFrom R u (exec i u)) : KeepsFrom R s (step s) := by
  unfold step cycle
  split
  · next hr => exact keepsFrom_next (hreset hr)
  next hr =>
  split
  · exact keepsFrom_ticked h (keepsFrom_shutDownStep h s)
  · exact keepsFrom_ticked h (keepsFrom_alive h (hexec (Bool.eq_false_of_not_eq_true hr)))

end Sys2Proof.Machine
end

section
/-! PROOFS. The registers with fixed bits, the size of the TLB, the part, and the flags of DR6: what every step keeps
(10_state.md R36, R68, R73, R81, R93, R98, R104, R109, R111 to R113). -/

namespace Sys2Proof.Machine

/-! ### A value with fixed bits -/

/-- `v` has no bit outside `mask` and `ones`, and every bit of `ones`: it is what loading it through the mask gives. -/
def Within (mask ones v : Word32) : Prop := (v &&& mask) ||| ones = v

theorem getLsbD_setBit {w : Nat} (v : BitVec w) (i j : Nat) (b : Bool) :
    (setBit v i b).getLsbD j = if i = j ∧ j < w then b else v.getLsbD j := by
  have hpow : (BitVec.ofNat w (2 ^ i)).getLsbD j = (decide (j < w) && decide (i = j)) := by
    rw [BitVec.getLsbD_ofNat, Nat.testBit_two_pow]
  unfold setBit
  by_cases hj : j < w
  · cases b <;> by_cases hij : i = j <;>
      simp only [Bool.false_eq_true, reduceIte, BitVec.getLsbD_or, BitVec.getLsbD_and, BitVec.getLsbD_not, hpow] <;> simp [hj, hij]
  · simp only [hj, and_false, if_false]
    rw [BitVec.getLsbD_of_ge _ _ (by omega), BitVec.getLsbD_of_ge _ _ (by omega)]

/-- The fixed bits of a value, bit by bit. -/
theorem within_iff {mask ones v : Word32} :
    Within mask ones v ↔ ∀ j < 32, ((v.getLsbD j && mask.getLsbD j) || ones.getLsbD j) = v.getLsbD j := by
  constructor
  · intro h j _
    simpa using congrArg (·.getLsbD j) h
  · intro h
    exact BitVec.eq_of_getLsbD_eq fun j hj => by simpa using h j hj

theorem within_load (mask ones v : Word32) : Within mask ones ((v &&& mask) ||| ones) :=
  within_iff.mpr fun j _ => by
    simp only [BitVec.getLsbD_or, BitVec.getLsbD_and]
    cases v.getLsbD j <;> cases mask.getLsbD j <;> simp

theorem within_mask (mask v : Word32) : Within mask 0 (v &&& mask) := by
  simpa using within_load mask 0 v

/-- Without a bit that is 1, the fixed bits are those of a plain mask. -/
theorem within_zero {mask v : Word32} : Within mask 0 v ↔ v &&& mask = v := by simp [Within]

theorem within_of_and_not {mask v : Word32} (h : v &&& ~~~ mask = 0) : Within mask 0 v :=
  within_iff.mpr fun j hj => by
    have hout : (v.getLsbD j && !mask.getLsbD j) = false := by simpa [hj] using congrArg (·.getLsbD j) h
    revert hout
    cases v.getLsbD j <;> cases mask.getLsbD j <;> simp

theorem within_and {mask ones v : Word32} (h : Within mask ones v) {c : Word32} (hc : ones &&& c = ones) :
    Within mask ones (v &&& c) := by
  rw [within_iff] at *
  intro j hj
  have hv := h j hj
  have hone : (ones.getLsbD j && c.getLsbD j) = ones.getLsbD j := by simpa using congrArg (·.getLsbD j) hc
  rw [BitVec.getLsbD_and, ← hv, ← hone]
  cases v.getLsbD j <;> cases mask.getLsbD j <;> cases ones.getLsbD j <;> cases c.getLsbD j <;> rfl

theorem within_or {mask ones v : Word32} (h : Within mask ones v) {n : Word32} (hn : n &&& mask = n) :
    Within mask ones (v ||| n) := by
  rw [within_iff] at *
  intro j hj
  have hv := h j hj
  have hin : (n.getLsbD j && mask.getLsbD j) = n.getLsbD j := by simpa using congrArg (·.getLsbD j) hn
  rw [BitVec.getLsbD_or, ← hin, ← hv]
  cases v.getLsbD j <;> cases mask.getLsbD j <;> cases ones.getLsbD j <;> cases n.getLsbD j <;> rfl

theorem within_setBit {mask ones v : Word32} (h : Within mask ones v) {i : Nat} {b : Bool} (hb : b = true → bit mask i = true)
    (hi : bit ones i = false) : Within mask ones (setBit v i b) := by
  rw [within_iff] at *
  intro j hj
  rw [getLsbD_setBit]
  split
  · next hij =>
    obtain ⟨rfl, -⟩ := hij
    unfold bit at hb hi
    cases b
    · simp [hi]
    · simp [hb rfl, hi]
  · exact h j hj

/-! ### EFLAGS -/

/-- The bits of EFLAGS that a part holds: the named ones, ID only with CPUID (10_state.md R36; D13). -/
def eflagsHeld (p : Part) : Word32 := if p.features.cpuid then eflagsNamed else setBit eflagsNamed 21 false

theorem fixImage_eq (s : State) (v : Word32) : s.fixImage v = (v &&& (eflagsHeld s.part)) ||| 2 := by
  unfold State.fixImage eflagsHeld fixEflags
  split
  · rfl
  · simp only [setBit, Bool.false_eq_true, if_false]
    rw [BitVec.and_or_distrib_right, BitVec.and_assoc]
    rfl

theorem bit_eflagsHeld_nt (p : Part) : bit (eflagsHeld p) 14 = true := by
  unfold eflagsHeld
  split <;> decide

theorem within_fixImage (s : State) (v : Word32) : Within (eflagsHeld s.part) 2 (s.fixImage v) := by
  rw [fixImage_eq]
  exact within_load _ _ v

theorem within_clear {mask v : Word32} (h : Within mask 2 v) {i : Nat} (hi : bit (2 : Word32) i = false) :
    Within mask 2 (setBit v i false) := within_setBit h (by simp) hi

theorem within_entryFlags {mask v : Word32} (h : Within mask 2 v) (c : Bool) : Within mask 2 (entryFlags v c) := by
  have hentry := within_clear (within_clear (within_clear (within_clear h (i := 8) rfl) (i := 14) rfl) (i := 17) rfl) (i := 16) rfl
  unfold entryFlags
  split
  · exact within_clear hentry rfl
  · exact hentry

theorem within_realEntryFlags {mask v : Word32} (h : Within mask 2 v) : Within mask 2 (realEntryFlags v) :=
  within_clear (within_entryFlags h true) rfl

theorem within_clearRf {mask v : Word32} (h : Within mask 2 v) : Within mask 2 (clearRf v) := within_clear h rfl

/-! ### The other registers -/

theorem within_lmswCr0 {v : Word32} (h : Within cr0Writable 0x10 v) (w : Word16) : Within cr0Writable 0x10 (lmswCr0 v w) := by
  have hmerge : Within cr0Writable 0x10 (merge 0x0000000E v (zext32 w)) := by
    refine within_or (within_and h (by decide)) ?_
    rw [BitVec.and_assoc]
    rfl
  refine within_or hmerge (BitVec.eq_of_getLsbD_eq fun j hj => ?_)
  by_cases hj0 : j = 0
  · subst hj0
    simp [show cr0Writable.getLsbD 0 = true from rfl]
  · simp [zext32, field, show ¬ j < 1 by omega]

theorem within_foundTr6 {v : Word32} (h : Within tr6Named 0 v) (e : TlbEntry) : Within tr6Named 0 (foundTr6 v e) := by
  have h8 := within_setBit (within_setBit (within_setBit (within_setBit h (i := 11) (b := true) (fun _ => rfl) rfl)
    (i := 10) (b := e.d) (fun _ => rfl) rfl) (i := 9) (b := !e.d) (fun _ => rfl) rfl) (i := 8) (b := e.u) (fun _ => rfl) rfl
  exact within_setBit (within_setBit (within_setBit h8 (i := 7) (b := !e.u) (fun _ => rfl) rfl)
    (i := 6) (b := e.w) (fun _ => rfl) rfl) (i := 5) (b := !e.w) (fun _ => rfl) rfl

theorem append_and_append {m n : Nat} (a c : BitVec m) (b d : BitVec n) : (a ++ b) &&& (c ++ d) = (a &&& c) ++ (b &&& d) := by
  refine BitVec.eq_of_getLsbD_eq fun j _ => ?_
  simp only [BitVec.getLsbD_and, BitVec.getLsbD_append]
  split <;> rfl

theorem within_tr7Of (phys : BitVec 20) (ht : Bool) (rep : BitVec 2) : Within tr7Named 0 (tr7Of phys ht rep) := by
  have hhigh : (phys ++ (0 : BitVec 7)) &&& (BitVec.allOnes 20 ++ (0 : BitVec 7)) = phys ++ (0 : BitVec 7) := by
    rw [append_and_append, BitVec.and_allOnes, BitVec.and_self]
  have hlow : (BitVec.ofBool ht ++ rep ++ (0 : BitVec 2)) &&& (0x1C : BitVec 5) = BitVec.ofBool ht ++ rep ++ (0 : BitVec 2) := by
    revert ht rep
    decide
  exact within_zero.mpr ((append_and_append _ _ _ (0x1C : BitVec 5)).trans (congrArg₂ (· ++ ·) hhigh hlow))

/-! ### The registers with fixed bits -/

/-- The registers with fixed bits, by their values. -/
structure FixedRegs (p : Part) (eflags cr0 cr3 cr4 dr6 dr7 tr6 tr7 : Word32) : Prop where
  eflags : Within (eflagsHeld p) 2 eflags
  cr0 : Within cr0Writable 0x10 cr0
  cr3 : Within cr3Kept 0 cr3
  cr4 : Within (cr4Mask p.features) 0 cr4
  dr6 : Within dr6Named 0 dr6
  dr7 : Within dr7Named 0 dr7
  tr6 : Within tr6Named 0 tr6
  tr7 : Within tr7Named 0 tr7

/-- The registers of a state have their fixed bits. -/
def State.fixedRegs (s : State) : Prop := FixedRegs s.part s.eflags s.cr0 s.cr3 s.cr4 s.dr6 s.dr7 s.tr6 s.tr7

/-- EIP[31:16] is 0 in 16-bit code (10_state.md R22). -/
def State.eipFits (s : State) : Prop := s.codeSize = .s16 → field s.eip 16 16 = 0

theorem fixedBits_iff (s : State) : s.fixedBits ↔ s.fixedRegs ∧ s.eipFits := by
  have hfl : s.fixImage s.eflags = s.eflags ↔ Within (eflagsHeld s.part) 2 s.eflags := by rw [fixImage_eq]; rfl
  unfold State.fixedBits
  rw [hfl, ← within_zero (v := s.cr3), ← within_zero (v := s.cr4), ← within_zero (v := s.dr6), ← within_zero (v := s.dr7),
    ← within_zero (v := s.tr6), ← within_zero (v := s.tr7)]
  constructor
  · rintro ⟨hfl, h0, h3, h4, h6, h7, ht6, ht7, heip⟩
    exact ⟨⟨hfl, h0, h3, h4, h6, h7, ht6, ht7⟩, heip⟩
  · rintro ⟨⟨hfl, h0, h3, h4, h6, h7, ht6, ht7⟩, heip⟩
    exact ⟨hfl, h0, h3, h4, h6, h7, ht6, ht7, heip⟩

/-- The part, the number of TLB entries, and the fixed bits of the registers are kept. -/
structure SystemKept (s t : State) : Prop where
  part : t.part = s.part
  tlb : t.tlb.length = s.tlb.length
  regs : s.fixedRegs → t.fixedRegs

theorem systemKept_frame : IsFrame SystemKept where
  refl _ := ⟨rfl, rfl, id⟩
  trans _ _ _ h1 h2 := ⟨h2.part.trans h1.part, h2.tlb.trans h1.tlb, h2.regs ∘ h1.regs⟩

theorem systemKept_storeBytes (s : State) (pas : List Word32) (vs : List Byte) : SystemKept s (s.storeBytes pas vs) := by
  rw [storeBytes_eq]
  exact ⟨rfl, rfl, id⟩

/-- An update of EFLAGS alone. -/
theorem systemKept_eflags {s : State} {fl : Word32}
    (h : Within (eflagsHeld s.part) 2 s.eflags → Within (eflagsHeld s.part) 2 fl) :
    SystemKept s { s with eflags := fl } := ⟨rfl, rfl, fun hr => { hr with eflags := h hr.eflags }⟩

/-- A jump, which writes EIP too. -/
theorem systemKept_jumpTo {s : State} (eip : Word32) {fl : Word32}
    (h : Within (eflagsHeld s.part) 2 s.eflags → Within (eflagsHeld s.part) 2 fl) : SystemKept s (s.jumpTo eip fl) :=
  ⟨rfl, rfl, (systemKept_eflags h).regs⟩

/-- A jump with an image masked in an earlier state. -/
theorem systemKept_jumpTo_fixImage {s t : State} (h : SystemKept s t) (eip v : Word32) : SystemKept s (t.jumpTo eip (s.fixImage v)) := by
  refine systemKept_frame.trans _ _ _ h (systemKept_jumpTo eip fun _ => ?_)
  rw [h.part]
  exact within_fixImage s v

theorem systemKept_enterTask (s : State) (g : SegState) (kind : SwitchKind) (c : TaskContext) :
    SystemKept s (({ s with tr := g } : State).enterTask kind c) := by
  refine ⟨rfl, List.length_map .., fun hr => ?_⟩
  refine { hr with
    eflags := ?_
    cr0 := within_setBit hr.cr0 (fun _ => rfl) rfl
    cr3 := within_mask cr3Kept _
    dr7 := within_and hr.dr7 rfl }
  have himage : Within (eflagsHeld s.part) 2 (({ s with tr := g } : State).fixImage c.eflags) := within_fixImage _ _
  show Within (eflagsHeld s.part) 2 (if _ then _ else _)
  split
  · exact within_setBit himage (fun _ => bit_eflagsHeld_nt s.part) rfl
  · exact himage

theorem systemKept_raised (s : State) (e : Exn) : SystemKept s (s.raised e) := by
  cases e with
  | db flags atInstr =>
    refine ⟨rfl, rfl, fun hr => { hr with dr6 := within_or hr.dr6 ?_ }⟩
    rw [BitVec.and_assoc, BitVec.and_self]
  | _ => exact ⟨rfl, rfl, id⟩

/-- Only the named flags of DR6 are reported (60 R332). -/
theorem pendingFlags_named (s : State) : s.pendingFlags &&& dr6Named = s.pendingFlags := by
  have hb : ∀ b : BitVec 4, zext32 b &&& dr6Named = zext32 b := by decide
  have hs : ∀ b : Bool, (if b then dr6Bs else 0) &&& dr6Named = if b then dr6Bs else 0 := by decide
  have ht : ∀ b : Bool, (if b then dr6Bt else 0) &&& dr6Named = if b then dr6Bt else 0 := by decide
  unfold State.pendingFlags State.bFlags
  rw [BitVec.and_or_distrib_right, BitVec.and_or_distrib_right, hb, hs, ht]

theorem systemKept_stepClosed : StepClosed SystemKept where
  frame := systemKept_frame
  store := systemKept_storeBytes
  tlb _ _ hl := ⟨rfl, hl, id⟩
  draws _ _ := ⟨rfl, rfl, id⟩
  pending _ _ := ⟨rfl, rfl, id⟩
  esp _ _ := ⟨rfl, rfl, id⟩
  segs _ _ := ⟨rfl, rfl, id⟩
  level _ _ := ⟨rfl, rfl, fun hr => { hr with eflags := within_clear hr.eflags rfl }⟩
  jump _ eip c := systemKept_jumpTo eip fun h => within_entryFlags h c
  jumpReal _ eip := systemKept_jumpTo eip within_realEntryFlags
  guard _ := ⟨rfl, rfl, fun hr => { hr with dr7 := within_setBit hr.dr7 (fun _ => rfl) rfl }⟩
  ldtr _ _ := ⟨rfl, rfl, id⟩
  cpl _ _ := ⟨rfl, rfl, id⟩
  task s g kind c _ := systemKept_enterTask s g kind c
  setEip _ := ⟨rfl, rfl, id⟩
  raised := systemKept_raised
  down _ := ⟨rfl, rfl, id⟩
  iret _ _ eip _ _ h := systemKept_jumpTo_fixImage h eip _
  iretVirtual _ _ eip _ h := systemKept_jumpTo_fixImage h eip _
  unblock _ := ⟨rfl, rfl, id⟩
  gprs _ _ := ⟨rfl, rfl, id⟩
  gdtr _ _ := ⟨rfl, rfl, id⟩
  idtr _ _ := ⟨rfl, rfl, id⟩
  tr _ _ := ⟨rfl, rfl, id⟩
  cr2 _ _ := ⟨rfl, rfl, id⟩
  cr3 _ v := ⟨rfl, rfl, fun hr => { hr with cr3 := within_mask _ v }⟩
  cr4 _ _ hv := ⟨rfl, rfl, fun hr => { hr with cr4 := within_of_and_not hv }⟩
  tr6 _ v := ⟨rfl, rfl, fun hr => { hr with tr6 := within_mask _ v }⟩
  tr7 _ v := ⟨rfl, rfl, fun hr => { hr with tr7 := within_mask _ v }⟩
  tr6Found _ e := ⟨rfl, rfl, fun hr => { hr with tr6 := within_foundTr6 hr.tr6 e }⟩
  tr7Found _ phys ht rep := ⟨rfl, rfl, fun hr => { hr with tr7 := within_tr7Of phys ht rep }⟩
  msr _ _ := ⟨rfl, rfl, id⟩
  env _ _ := ⟨rfl, rfl, id⟩
  activity _ _ := ⟨rfl, rfl, id⟩
  nmiBlocked _ _ := ⟨rfl, rfl, id⟩
  goOn _ eip := systemKept_jumpTo eip within_clearRf
  report s := ⟨rfl, rfl, fun hr => { hr with dr6 := within_or hr.dr6 (pendingFlags_named s) }⟩

/-- A write of CR0, which may empty the TLB. -/
theorem systemKept_setCr0 (s : State) (v : Word32) (h : Within cr0Writable 0x10 s.cr0 → Within cr0Writable 0x10 v) :
    SystemKept s (s.setCr0 v) := by
  unfold State.setCr0
  dsimp only
  split
  · exact ⟨rfl, List.length_map .., fun hr => { hr with cr0 := h hr.cr0 }⟩
  · exact ⟨rfl, rfl, fun hr => { hr with cr0 := h hr.cr0 }⟩

theorem systemKept_writeDr (s : State) (n : BitVec 3) (v : Word32) : SystemKept s (s.writeDr n v) := by
  unfold State.writeDr
  dsimp only
  split_ifs
  · exact ⟨rfl, rfl, id⟩
  · exact ⟨rfl, rfl, id⟩
  · exact ⟨rfl, rfl, id⟩
  · exact ⟨rfl, rfl, id⟩
  · exact ⟨rfl, rfl, fun hr => { hr with dr6 := within_mask _ v }⟩
  · exact ⟨rfl, rfl, fun hr => { hr with dr7 := within_mask _ v }⟩

theorem systemKept_writes (i : Instr) : WritesKept SystemKept i := by
  cases i with
  | clts p => exact fun s => ⟨rfl, rfl, fun hr => { hr with cr0 := within_setBit hr.cr0 (fun _ => rfl) rfl }⟩
  | lmsw p o => exact fun s w => systemKept_setCr0 s _ fun h => within_lmswCr0 h w
  | movToCr p mod n r => exact fun _ s v _ _ => systemKept_setCr0 s _ fun _ => within_load _ _ v
  | movToDr p mod n r => exact fun s v => systemKept_writeDr s n v
  | _ => trivial

theorem systemKept_exec (i : Instr) (s : State) : KeepsFrom SystemKept s (exec i s) :=
  keepsFrom_exec systemKept_stepClosed (systemKept_writes i) s

/-- Settles O15: a reset makes 32 entries and keeps the part, every other update keeps both. -/
theorem stepKeepsTlbSizeAndPart : Obligations.StepKeepsTlbSizeAndPart := by
  intro s t hstep
  by_cases hreset : s.env.reset = true
  · unfold step cycle at hstep
    rw [if_pos hreset] at hstep
    cases hstep
    exact ⟨rfl, fun _ => List.length_replicate⟩
  · have hkept := keepsFrom_step systemKept_stepClosed.toCycleClosed (fun h => absurd h hreset)
      (fun _ i u _ => systemKept_exec i u) t hstep
    exact ⟨hkept.part, fun h => hkept.tlb.trans h⟩

/-! ### The flags of DR6 -/

/-- No flag of DR6 is cleared. -/
def Dr6Grows (s t : State) : Prop := s.dr6 &&& t.dr6 = s.dr6

theorem dr6Grows_of_eq {s t : State} (h : t.dr6 = s.dr6) : Dr6Grows s t := by
  unfold Dr6Grows
  rw [h, BitVec.and_self]

theorem dr6Grows_or (s : State) (v : Word32) : s.dr6 &&& (s.dr6 ||| v) = s.dr6 := by
  refine BitVec.eq_of_getLsbD_eq fun j _ => ?_
  rw [BitVec.getLsbD_and, BitVec.getLsbD_or]
  cases s.dr6.getLsbD j <;> rfl

theorem dr6Grows_frame : IsFrame Dr6Grows where
  refl _ := dr6Grows_of_eq rfl
  trans s t u h1 h2 := by
    unfold Dr6Grows at *
    rw [← h1, BitVec.and_assoc, h2]

theorem dr6Grows_raised (s : State) (e : Exn) : Dr6Grows s (s.raised e) := by
  cases e with
  | db flags atInstr => exact dr6Grows_or s _
  | _ => exact dr6Grows_of_eq rfl

theorem dr6Grows_stepClosed : StepClosed Dr6Grows where
  frame := dr6Grows_frame
  store _ _ _ := dr6Grows_of_eq (storeBytes_dr6 ..)
  tlb _ _ _ := dr6Grows_of_eq rfl
  draws _ _ := dr6Grows_of_eq rfl
  pending _ _ := dr6Grows_of_eq rfl
  esp _ _ := dr6Grows_of_eq rfl
  segs _ _ := dr6Grows_of_eq rfl
  level _ _ := dr6Grows_of_eq rfl
  jump _ _ _ := dr6Grows_of_eq rfl
  jumpReal _ _ := dr6Grows_of_eq rfl
  guard _ := dr6Grows_of_eq rfl
  ldtr _ _ := dr6Grows_of_eq rfl
  cpl _ _ := dr6Grows_of_eq rfl
  task _ _ _ _ _ := dr6Grows_of_eq rfl
  setEip _ := dr6Grows_of_eq rfl
  raised := dr6Grows_raised
  down _ := dr6Grows_of_eq rfl
  iret _ _ _ _ _ h := h
  iretVirtual _ _ _ _ h := h
  unblock _ := dr6Grows_of_eq rfl
  gprs _ _ := dr6Grows_of_eq rfl
  gdtr _ _ := dr6Grows_of_eq rfl
  idtr _ _ := dr6Grows_of_eq rfl
  tr _ _ := dr6Grows_of_eq rfl
  cr2 _ _ := dr6Grows_of_eq rfl
  cr3 _ _ := dr6Grows_of_eq rfl
  cr4 _ _ _ := dr6Grows_of_eq rfl
  tr6 _ _ := dr6Grows_of_eq rfl
  tr7 _ _ := dr6Grows_of_eq rfl
  tr6Found _ _ := dr6Grows_of_eq rfl
  tr7Found _ _ _ _ := dr6Grows_of_eq rfl
  msr _ _ := dr6Grows_of_eq rfl
  env _ _ := dr6Grows_of_eq rfl
  activity _ _ := dr6Grows_of_eq rfl
  nmiBlocked _ _ := dr6Grows_of_eq rfl
  goOn _ _ := dr6Grows_of_eq rfl
  report s := dr6Grows_or s _

theorem setCr0_dr6 (s : State) (v : Word32) : (s.setCr0 v).dr6 = s.dr6 := by
  unfold State.setCr0
  dsimp only
  split <;> rfl

/-- A write of a debug register that is not DR6, by either of its numbers. -/
theorem writeDr_dr6 (s : State) {n : BitVec 3} (v : Word32) (h : debugAlias n ≠ 6) : (s.writeDr n v).dr6 = s.dr6 := by
  unfold State.writeDr
  simp only [h, if_false]
  split_ifs <;> rfl

theorem dr6Grows_writes {i : Instr} (h : ∀ p mod n r, i = .movToDr p mod n r → debugAlias n ≠ 6) : WritesKept Dr6Grows i := by
  cases i with
  | clts p => exact fun s => dr6Grows_of_eq rfl
  | lmsw p o => exact fun s w => dr6Grows_of_eq (setCr0_dr6 s _)
  | movToCr p mod n r => exact fun _ s v _ _ => dr6Grows_of_eq (setCr0_dr6 s _)
  | movToDr p mod n r => exact fun s v => dr6Grows_of_eq (writeDr_dr6 s v (h p mod n r rfl))
  | _ => trivial

/-- Settles O16: of the updates of a step, the only ones that write DR6 or flags into it, and MOV to DR6. -/
theorem debugStatusOnlySet : Obligations.DebugStatusOnlySet := by
  intro s t hreset hstep hmov
  refine keepsFrom_step dr6Grows_stepClosed.toCycleClosed (fun h => absurd h (by simp [hreset])) (fun _ i u hfetch => ?_) t hstep
  refine keepsFrom_exec dr6Grows_stepClosed (dr6Grows_writes fun p mod n r hi => ?_) u
  exact hmov p mod n r u (hi ▸ hfetch)

end Sys2Proof.Machine
end

section
/-! PROOFS. EIP in 16-bit code (10_state.md R22): every instruction and every delivery ends in a jump. With it the fixed bits of every
step; the legality of the state after reset; the step that runs an instruction. -/

namespace Sys2Proof.Machine

/-! ### EIP in 16-bit code (10_state.md R22) -/

/-- EIP stays as the code size holds it. -/
def EipKept (s t : State) : Prop := s.eipFits → t.eipFits

/-- Whenever `m` answers, EIP is as the code size holds it, whatever was before. -/
def Lands {α : Type} (m : Exec α) : Prop := ∀ s a t, m s = .ok (a, t) → t.eipFits

theorem eipFits_of_eip {s : State} {v : Word32} (h : s.eip = codeOffset s.codeSize v) : s.eipFits := by
  intro hz
  rw [h, hz, codeOffset_s16]
  refine BitVec.eq_of_getLsbD_eq fun j hj => ?_
  simp [field, zext32, low16]

theorem jumpTo_fits (s : State) (eip fl : Word32) : (s.jumpTo eip fl).eipFits := eipFits_of_eip (v := eip) rfl

theorem setEip_fits (s : State) (v : Word32) : (s.setEip v).eipFits := eipFits_of_eip (v := v) rfl

theorem advance_fits (s t : State) (i : Instr) : (s.advance t i).eipFits := eipFits_of_eip (v := s.eipPlus i.length) rfl

theorem enterHandler_fits {s : State} (h : s.eipFits) (ev : Event) : (s.enterHandler ev).eipFits := by
  unfold State.enterHandler
  split <;> exact h

theorem setStackTop_fits {s : State} (h : s.eipFits) (off : Word32) : (s.setStackTop off).eipFits := by
  unfold State.setStackTop
  split <;> exact h

theorem raised_fits {s : State} (h : s.eipFits) (e : Exn) : (s.raised e).eipFits := by
  cases e <;> exact h

theorem eipKept_operandClosed : OperandClosed EipKept where
  frame := ⟨fun _ => id, fun _ _ _ h1 h2 => h2 ∘ h1⟩
  store s pas vs h := by
    rw [storeBytes_eq]
    exact h
  tlb _ _ _ := id
  draws _ _ := id
  pending _ _ := id

theorem eipKept_frame : IsFrame EipKept := eipKept_operandClosed.frame

/-! ### Computations that end in a jump -/

theorem lands_modify {f : State → State} (h : ∀ s, (f s).eipFits) : Lands (modify f : Exec Unit) := by
  intro s a t ht
  cases ht
  exact h s

theorem lands_raise {α : Type} (e : Exn) : Lands (raise e : Exec α) := by
  intro s a t ht
  cases ht

theorem lands_refuse {α : Type} (r : Refusal) : Lands (refuse r : Exec α) := by
  intro s a t ht
  cases ht

/-- The last part of a computation decides. -/
theorem lands_bind {α β : Type} {m : Exec α} {f : α → Exec β} (hf : ∀ a, Lands (f a)) : Lands (m >>= f) := by
  intro s b u hu
  obtain ⟨a, t, -, h⟩ := exec_bind_ok hu
  exact hf a t b u h

/-- What follows a jump may leave EIP alone. -/
theorem lands_bind_keeps {α β : Type} {m : Exec α} {f : α → Exec β} (hm : Lands m) (hf : ∀ a, Keeps EipKept (f a)) :
    Lands (m >>= f) := by
  intro s b u hu
  obtain ⟨a, t, h1, h2⟩ := exec_bind_ok hu
  exact hf a t b u h2 (hm s a t h1)

theorem lands_ite {α : Type} {c : Prop} [Decidable c] {m n : Exec α} (hm : Lands m) (hn : Lands n) :
    Lands (if c then m else n) := by
  split
  · exact hm
  · exact hn

theorem lands_refuseFaults {α : Type} {m : Exec α} (hm : Lands m) : Lands (refuseFaults m) := by
  intro s a t ht
  refine hm s a t ?_
  unfold refuseFaults at ht
  split at ht
  · cases ht
  · exact ht

theorem lands_switchBody (sel : Word16) (d : SegCache) (kind : SwitchKind) (eip eflags : Word32) :
    Lands (switchBody sel d kind eip eflags) :=
  lands_bind fun _ => lands_bind fun _ => lands_bind fun _ => lands_bind fun _ => lands_bind fun _ => lands_bind fun _ =>
    lands_bind fun _ => lands_bind fun _ => lands_modify fun s => setEip_fits s s.eip

theorem lands_taskSwitch (sel : Word16) (d : SegCache) (kind : SwitchKind) (eip eflags ext : Word32) :
    Lands (taskSwitch sel d kind eip eflags ext) :=
  lands_bind fun _ => lands_bind fun _ => lands_bind fun _ => lands_refuseFaults (lands_switchBody sel d kind eip eflags)

/-! ### Delivery -/

theorem lands_deliverGate (ev : Event) (g : Gate) : Lands (deliverGate ev g) :=
  lands_bind fun _ => lands_bind fun _ => lands_bind fun _ => lands_bind fun _ => lands_bind fun _ => lands_bind fun _ =>
    lands_bind fun _ => lands_bind fun _ => lands_bind fun _ =>
      lands_modify fun t => enterHandler_fits (jumpTo_fits t g.offset _) ev

theorem lands_deliverTask (ev : Event) (g : Gate) : Lands (deliverTask ev g) :=
  lands_bind fun _ => lands_bind fun _ => lands_bind_keeps (lands_taskSwitch _ _ _ _ _ _) fun _ =>
    keeps_modify fun _ h => enterHandler_fits h ev

theorem lands_deliverProtected (ev : Event) : Lands (deliverProtected ev) :=
  lands_bind fun _ => lands_bind fun _ => lands_bind fun _ => lands_bind fun _ => lands_bind fun _ => lands_bind fun _ =>
    lands_ite (lands_bind_keeps (lands_deliverTask ev _) fun _ => keeps_pure eipKept_frame _)
      (lands_bind_keeps (lands_deliverGate ev _) fun _ => keeps_pure eipKept_frame _)

theorem lands_deliverReal (ev : Event) : Lands (deliverReal ev) :=
  lands_bind fun _ => lands_bind fun _ => lands_bind fun _ => lands_bind fun _ => lands_bind fun _ => lands_bind fun _ =>
    lands_modify fun t => enterHandler_fits (jumpTo_fits (t.loadReal .cs _) _ _) ev

theorem lands_deliver (ev : Event) : Lands (deliver ev) :=
  lands_bind fun _ => lands_ite (lands_deliverProtected ev)
    (lands_bind_keeps (lands_deliverReal ev) fun _ => keeps_pure eipKept_frame _)

theorem eipKept_pushFrame (z : OpSize) (v : Word32) : Keeps EipKept (pushFrame z v) := by
  refine keeps_bind eipKept_frame (keeps_get eipKept_frame) fun s => ?_
  refine keeps_bind eipKept_frame (keeps_raiseIf eipKept_frame _ _) fun _ => ?_
  refine keeps_bind eipKept_frame (keeps_memWrite eipKept_operandClosed.toMmuClosed _ _ _ _) fun _ => ?_
  exact keeps_modify fun t h => setStackTop_fits h _

theorem eipKept_pushCode (z : OpSize) (c : Option Word32) : Keeps EipKept (pushCode z c) := by
  cases c with
  | none => exact keeps_pure eipKept_frame ()
  | some c => exact eipKept_pushFrame z c

/-- An attempt that delivers its event lands in the handler; one that faults does so before it begins, or in the new task. -/
theorem attempt_fits (ev : Event) (s : State) :
    (∀ t, attempt ev s = .done t → t.eipFits) ∧ ∀ e t, attempt ev s = .faulted e t → EipKept s t := by
  unfold attempt
  rw [exec_run]
  cases hd : deliver ev s with
  | error e => cases e <;> refine ⟨fun t ht => ?_, fun e t ht => ?_⟩ <;> cases ht; exact id
  | ok x =>
    obtain ⟨code, u⟩ := x
    have hu : u.eipFits := lands_deliver ev s _ _ hd
    dsimp only
    rw [exec_run]
    cases hp : pushCode .s32 code u with
    | error e => cases e <;> refine ⟨fun t ht => ?_, fun e t ht => ?_⟩ <;> cases ht; exact fun _ => hu
    | ok y =>
      refine ⟨fun t ht => ?_, fun e t ht => ?_⟩ <;> cases ht
      exact eipKept_pushCode _ _ u _ _ hp hu

theorem eipKept_deliverFrom (n : Nat) (c : FaultClass) (ev : Event) (s : State) : KeepsFrom EipKept s (deliverFrom n c ev s) := by
  induction n generalizing c ev s with
  | zero => exact keepsFrom_next id
  | succ n ih =>
    unfold deliverFrom
    split
    · next u hu => exact keepsFrom_next fun _ => (attempt_fits ev s).1 u hu
    · exact keepsFrom_refused s _
    · next e u hu =>
      have hraised : EipKept s (u.raised e) := fun h => raised_fits ((attempt_fits ev s).2 e u hu h) e
      refine keepsFrom_trans eipKept_frame hraised ?_
      dsimp only
      split
      · exact keepsFrom_next id
      split
      · exact ih _ _ _
      · exact ih _ _ _

theorem eipKept_takeException (e : Exn) (s : State) : KeepsFrom EipKept s (takeException e s) :=
  keepsFrom_trans eipKept_frame (fun h => raised_fits h e) (eipKept_deliverFrom 5 _ _ _)

theorem eipKept_takeTrap (ev : Event) (s : State) : KeepsFrom EipKept s (takeTrap ev s) := by
  unfold takeTrap
  split
  · next t ht => exact keepsFrom_next fun _ => (attempt_fits ev s).1 t ht
  · exact eipKept_deliverFrom 5 _ ev s

theorem eipKept_cycleClosed : CycleClosed EipKept where
  toOperandClosed := eipKept_operandClosed
  msr _ _ := id
  env _ _ := id
  activity _ _ := id
  nmiBlocked _ _ := id
  report _ := id
  takeEvent := eipKept_deliverFrom 5 .benign
  takeException := eipKept_takeException

/-! ### Instructions -/

theorem eipKept_settle {m : Exec Unit} (hm : Lands m) (s : State) : KeepsFrom EipKept s (settle s (m.run s)) := by
  rw [exec_run]
  cases hms : m s with
  | ok x => exact keepsFrom_next fun _ => hm s _ x.2 hms
  | error e => exact keepsFrom_settle_error eipKept_cycleClosed s e

/-- Whatever its body does, an instruction that goes on to the next one ends in a jump. -/
theorem eipKept_runInstr (i : Instr) (body : Exec Unit) (s : State) : KeepsFrom EipKept s (runInstr i body s) :=
  eipKept_settle (lands_bind fun _ => lands_bind fun _ => lands_modify fun t => advance_fits s t i) s

theorem eipKept_runTransfer (i : Instr) {body : Exec Unit} (hb : Lands body) (s : State) :
    KeepsFrom EipKept s (runTransfer i body s) :=
  eipKept_settle (lands_bind fun _ => lands_bind_keeps hb fun _ => keeps_modify (f := fun t => t.stepped s.tf) fun _ => id) s

theorem lands_callTask (sel : Word16) (d : SegCache) (next : Word32) : Lands (callTask sel d next) :=
  lands_bind fun _ => lands_taskSwitch _ _ _ _ _ _

theorem lands_callProtected (sel : Word16) (next : Word32) : Lands (callProtected sel next) := by
  refine lands_bind fun _ => lands_bind fun d => lands_bind fun _ => lands_ite (lands_bind fun _ => lands_ite ?_ ?_)
    (lands_ite (lands_refuse _) (lands_raise _))
  · exact lands_bind fun _ => lands_bind fun _ => lands_callTask _ _ _
  · exact lands_bind fun _ => lands_bind fun _ => lands_callTask _ _ _

theorem lands_callFar (z : OpSize) (sel : Word16) (off next : Word32) : Lands (callFar z sel off next) :=
  lands_bind fun _ => lands_ite (lands_callProtected sel next)
    (lands_bind fun _ => lands_bind fun _ => lands_bind fun _ => lands_modify fun t => jumpTo_fits (t.loadReal .cs sel) off _)

theorem lands_iretReal (z : OpSize) : Lands (iretReal z) :=
  lands_bind fun _ => lands_bind fun _ => lands_modify fun t => jumpTo_fits (t.loadReal .cs _) _ _

theorem lands_iretVirtual : Lands iretVirtual :=
  lands_bind fun _ => lands_bind fun _ => lands_bind fun _ => lands_bind fun _ =>
    lands_modify fun t => jumpTo_fits (t.loadReal .cs _) _ _

theorem lands_iretTask (next : Word32) : Lands (iretTask next) :=
  lands_bind fun _ => lands_bind fun _ => lands_bind fun _ => lands_taskSwitch _ _ _ _ _ _

theorem lands_iretToV86 (eip : Word32) (cs : Word16) (fl : Word32) : Lands (iretToV86 eip cs fl) :=
  lands_bind fun _ => lands_bind fun _ => lands_bind fun _ => lands_bind fun _ => lands_bind fun _ => lands_bind fun _ =>
    lands_bind fun _ => lands_modify fun t => jumpTo_fits ((t.loadV86All _ cs _ _ _ _).setReg .esp _) eip _

theorem lands_iretProtected (z : OpSize) (eip : Word32) (cs : Word16) (fl : Word32) : Lands (iretProtected z eip cs fl) :=
  lands_bind fun _ => lands_bind fun _ => lands_bind fun _ => lands_bind fun _ => lands_modify fun t => jumpTo_fits t eip _

theorem lands_iretBody (z : OpSize) (next : Word32) : Lands (iretBody z next) :=
  lands_bind fun _ => lands_ite (lands_iretReal z) (lands_ite
    (lands_ite (lands_iretReal z) (lands_ite lands_iretVirtual (lands_raise _)))
    (lands_ite (lands_iretTask next) (lands_bind fun _ => lands_ite (lands_iretToV86 _ _ _) (lands_iretProtected z _ _ _))))

theorem lands_returnFromException (z : OpSize) (next : Word32) : Lands (returnFromException z next) :=
  lands_bind_keeps (lands_iretBody z next) fun _ => keeps_modify fun _ => id

theorem eipKept_exec (i : Instr) (s : State) : KeepsFrom EipKept s (exec i s) := by
  cases i with
  | int3 p => exact keepsFrom_execInt3 eipKept_cycleClosed eipKept_takeTrap p s
  | callPtr p f => exact eipKept_runTransfer _ (lands_callFar _ _ _ _) s
  | callMem p o => exact eipKept_runTransfer _ (lands_bind fun _ => lands_bind fun _ => lands_callFar _ _ _ _) s
  | iret p => exact eipKept_runTransfer _ (lands_returnFromException _ _) s
  | wait p => exact keepsFrom_execWait eipKept_cycleClosed (eipKept_runInstr _ _ s)
  | esc p x g o => exact keepsFrom_execEsc eipKept_cycleClosed p x g o s
  | _ => exact eipKept_runInstr _ _ s

/-- Settles O13: the registers by the updates of a step, EIP by the jump in which each instruction and each delivery ends. -/
theorem stepKeepsFixedBits : Obligations.StepKeepsFixedBits := by
  intro s t hpart hs hstep
  rw [fixedBits_iff] at hpart hs ⊢
  obtain ⟨hregs, heip⟩ := hs
  by_cases hreset : s.env.reset = true
  · unfold step cycle at hstep
    rw [if_pos hreset] at hstep
    cases hstep
    exact hpart
  · have hkept := keepsFrom_step systemKept_stepClosed.toCycleClosed (fun h => absurd h hreset)
      (fun _ i u _ => systemKept_exec i u) t hstep
    have hfits := keepsFrom_step eipKept_cycleClosed (fun h => absurd h hreset) (fun _ i u _ => eipKept_exec i u) t hstep
    exact ⟨hkept.regs hregs, hfits heip⟩

/-! ### Reset, and one step -/

/-- The registers of R125 have their fixed bits on every part. -/
theorem reset_fixedRegs (p : Part) : FixedRegs p State.reset.eflags State.reset.cr0 State.reset.cr3 State.reset.cr4 State.reset.dr6
    State.reset.dr7 State.reset.tr6 State.reset.tr7 where
  eflags := by
    unfold eflagsHeld
    split <;> rfl
  cr0 := rfl
  cr3 := rfl
  cr4 := within_zero.mpr (BitVec.zero_and ..)
  dr6 := rfl
  dr7 := rfl
  tr6 := rfl
  tr7 := rfl

theorem reset_eipFits : State.reset.eipFits := fun _ => rfl

theorem reset_legalMode : State.reset.legalMode := by
  unfold State.legalMode
  decide

/-- Settles O11: each register of the table of R125 is read off `State.reset`; the TLB is made of 32 entries. -/
theorem resetIsLegal : Obligations.ResetIsLegal := by
  intro p hdefault hmem
  rw [resetOf_eq_reset hdefault]
  exact ⟨hmem, (fixedBits_iff _).mpr ⟨reset_fixedRegs p, reset_eipFits⟩, reset_legalMode, rfl⟩

/-- With no event to take, a running processor goes on with the next instruction (60 R353). -/
theorem boundary_eq_runNext {s : State} (hpending : s.pending.raises = false) (hnmi : s.nmiReady = false)
    (hintr : s.intrReady = none) (hrunning : s.activity = .running) : boundary s = runNext s.beginNext := by
  have hwaiting : s.activity ≠ .waiting := by simp [hrunning]
  unfold boundary
  rw [if_neg (by simp [hpending]), if_neg (by simp [hnmi]), hintr]
  exact if_neg hwaiting

/-- Nothing stands before the next instruction. -/
theorem step_of_calm {s : State} (h : s.calm) : step s = ticked (runNext s.beginNext) := by
  obtain ⟨hreset, hrunning, hcheck, hpending, hnmi, hintr, -⟩ := h
  have hshutdown : s.activity ≠ .shutdown := by simp [hrunning]
  unfold step cycle
  rw [if_neg (by simp [hreset]), if_neg hshutdown]
  unfold alive
  rw [hcheck]
  exact congrArg ticked (boundary_eq_runNext hpending hnmi hintr hrunning)

/-- The next instruction, where no instruction breakpoint is met and the fetch answers. -/
theorem runNext_of_fetch {s t : State} {i : Instr} (hhits : s.instrHits = 0) (hfetch : fetchInstr s.afterInstrHits = .ok (i, t)) :
    runNext s = exec i t := by
  unfold runNext
  rw [if_neg (by simp [hhits]), exec_run, hfetch]

/-- Settles O6: a calm step is `runNext`, whose fetch answers; the counters' advance is `tick`, which writes MSRs only. -/
theorem stepRunsDecoded : Obligations.StepRunsDecoded := by
  refine ⟨fun s t i hcalm hfetch => ?_, fun s => ⟨rfl, ⟨rfl⟩⟩, fun f r => ⟨rfl, rfl⟩⟩
  obtain ⟨-, -, -, -, -, -, hhits⟩ := id hcalm
  rw [step_of_calm hcalm, runNext_of_fetch hhits hfetch]

end Sys2Proof.Machine
end

section
/-! PROOFS. Breakpoint conditions (10_state.md R99 to R101; 60_exceptions.md R331, R332, R336, R338). -/

namespace Sys2Proof.Machine

/-! ### Overlap of two ranges of bytes -/

/-- Of two short ranges of addresses one begins inside the other exactly when they share a byte, modulo 2^32. -/
theorem overlap_iff (lin base : Word32) {n m : Nat} (hn : 0 < n) (hn8 : n ≤ 8) (hm : m ≤ 3) :
    ((lin - base).toNat ≤ m ∨ (base - lin).toNat < n) ↔
      ∃ j k : Nat, j < n ∧ k < m + 1 ∧ lin + BitVec.ofNat 32 j = base + BitVec.ofNat 32 k := by
  have hadd : ∀ x y : Word32, x + BitVec.ofNat 32 (y - x).toNat = y := fun x y => by
    rw [BitVec.ofNat_toNat, BitVec.setWidth_eq]
    bv_omega
  constructor
  · rintro (h | h)
    · exact ⟨0, (lin - base).toNat, hn, by omega, by rw [hadd]; exact BitVec.add_zero lin⟩
    · exact ⟨(base - lin).toNat, 0, h, by omega, by rw [hadd]; exact (BitVec.add_zero base).symm⟩
  · rintro ⟨j, k, hj, hk, heq⟩
    bv_omega

/-- The watched bytes are one more than the mask of the low address bits (60 R331). -/
theorem watched_eq (l : BitVec 2) (h : l ≠ 2) : (if l = 0 then 1 else if l = 1 then 2 else 4) = (lenMask l).toNat + 1
    ∧ (if l = 0 then (0 : Word32) else if l = 1 then 1 else 3) = lenMask l := by
  revert l
  decide

theorem touches_iff (dr lin : Word32) {l : BitVec 2} {n : Nat} (hl : l ≠ 2) (hn : 0 < n) (hn8 : n ≤ 8) :
    touches dr l lin n = true ↔
      ∃ j k : Nat, j < n ∧ k < (if l = 0 then 1 else if l = 1 then 2 else 4)
        ∧ lin + BitVec.ofNat 32 j
          = (dr &&& ~~~ (if l = 0 then (0 : Word32) else if l = 1 then 1 else 3)) + BitVec.ofNat 32 k := by
  have hmask : (lenMask l).toNat ≤ 3 := by
    revert l
    decide
  obtain ⟨hbytes, hlow⟩ := watched_eq l hl
  rw [hbytes, hlow, ← overlap_iff lin _ hn hn8 hmask]
  simp [touches]

/-! ### One condition -/

/-- A condition whose fields leave nothing open. -/
theorem bpHit_of_closed {s : State} {n : Nat} {a : BpAccess} (h : s.bpOpen n a = false) (k : Nat) :
    s.bpHit k n a = (s.bpEnabled n && s.bpMatches n a) := by
  simp [State.bpHit, h]

theorem bpHit_data_iff {s : State} {n : Nat} (hrw : s.bpRw n ≠ 2) (hlen : s.bpLen n ≠ 2) (k : Nat) (w : Bool) (lin : Word32)
    (j : Nat) : s.bpHit k n (.data w lin j) = true ↔ s.bpEnabled n = true
      ∧ (s.bpRw n = 3 ∨ (s.bpRw n = 1 ∧ w = true)) ∧ touches (s.bpAddr n) (s.bpLen n) lin j = true := by
  rw [bpHit_of_closed (by simp only [State.bpOpen, beq_false_of_ne hrw, beq_false_of_ne hlen, Bool.and_false, Bool.false_and,
    Bool.or_false])]
  simp only [State.bpMatches, Bool.and_eq_true, Bool.or_eq_true, beq_iff_eq, bne_iff_ne]
  tauto

theorem bpHit_instr_iff {s : State} {n : Nat} (hrw : s.bpRw n = 0) (hlen : s.bpLen n = 0) (k : Nat) (lin : Word32) :
    s.bpHit k n (.instr lin) = true ↔ s.bpEnabled n = true ∧ lin = s.bpAddr n := by
  rw [bpHit_of_closed (by simp [State.bpOpen, hrw, hlen])]
  simp [State.bpMatches, hrw, hlen]

/-- A data condition is met by no instruction. -/
theorem bpHit_instr_of_data {s : State} {n : Nat} (hrw : s.bpRw n = 1 ∨ s.bpRw n = 3) (k : Nat) (lin : Word32) :
    s.bpHit k n (.instr lin) = false := by
  have h0 : s.bpRw n ≠ 0 := by rcases hrw with h | h <;> simp [h]
  have h2 : s.bpRw n ≠ 2 := by rcases hrw with h | h <;> simp [h]
  rw [bpHit_of_closed (by simp only [State.bpOpen, beq_false_of_ne h0, beq_false_of_ne h2, Bool.false_and, Bool.or_false])]
  simp only [State.bpMatches, beq_false_of_ne h0, Bool.false_and, Bool.and_false]

/-- An I/O condition is met by no access of this spec (60 R337). -/
theorem bpHit_io {s : State} {n : Nat} (hrw : s.bpRw n = 2) (hde : s.de = true) (k : Nat) (a : BpAccess) :
    s.bpHit k n a = false := by
  cases a with
  | instr lin =>
    rw [bpHit_of_closed (by simp [State.bpOpen, hrw, hde])]
    simp [State.bpMatches, hrw]
  | data w lin j =>
    rw [bpHit_of_closed (by simp [State.bpOpen, hrw, hde])]
    simp [State.bpMatches, hrw]

theorem bpEnabled_iff (s : State) (n : Nat) : s.bpEnabled n = true ↔ bit s.dr7 (2 * n) = true ∨ bit s.dr7 (2 * n + 1) = true := by
  simp [State.bpEnabled]

/-! ### The four conditions together -/

/-- Four flags made of a function of the number give it back. -/
theorem bit_bits4 (f : Nat → Bool) {n : Nat} (hn : n < 4) : bit (bits4 (f 0) (f 1) (f 2) (f 3)) n = f n := by
  have hbits : ∀ b0 b1 b2 b3 : Bool, bit (bits4 b0 b1 b2 b3) 0 = b0 ∧ bit (bits4 b0 b1 b2 b3) 1 = b1
      ∧ bit (bits4 b0 b1 b2 b3) 2 = b2 ∧ bit (bits4 b0 b1 b2 b3) 3 = b3 := by decide
  obtain ⟨h0, h1, h2, h3⟩ := hbits (f 0) (f 1) (f 2) (f 3)
  match n, hn with
  | 0, _ => exact h0
  | 1, _ => exact h1
  | 2, _ => exact h2
  | 3, _ => exact h3

theorem bit_bpHits (s : State) (k : Nat) (a : BpAccess) {n : Nat} (hn : n < 4) : bit (s.bpHits k a) n = s.bpHit k n a :=
  bit_bits4 (fun n => s.bpHit k n a) hn

/-- Every detected condition is reported, and maybe others that were met (60 R332, U13). -/
theorem bit_bFlags (s : State) (hits disabled : BitVec 4) {n : Nat} (hn : n < 4) :
    bit (s.bFlags hits disabled) n = (bit hits n || (bit disabled n && bit (Config.breakpointDraw s.draws) n)) := by
  have hext : ∀ b : BitVec 4, bit (zext32 b) n = bit b n := fun b => by
    simp [bit, zext32, show n < 32 by omega]
  exact (hext _).trans (bit_bits4 (fun n => bit hits n || (bit disabled n && bit (Config.breakpointDraw s.draws) n)) hn)

theorem instrHits_of_rf {s : State} (h : s.rf = true) : s.instrHits = 0 := if_pos h

theorem bit_instrHits {s : State} (h : s.rf = false) {n : Nat} (hn : n < 4) :
    bit s.instrHits n = s.bpHit s.draws n (.instr s.fetchAddr) := by
  have hhits : s.instrHits = s.bpHits s.draws (.instr s.fetchAddr) := if_neg (by simp [h])
  rw [hhits, bit_bpHits _ _ _ hn]

theorem bit_noted_hits (s : State) (a : BpAccess) {n : Nat} (hn : n < 4) :
    bit (s.noted a).pending.hits n = (bit s.pending.hits n || s.bpHit s.draws n a) := by
  rw [← bit_bpHits s s.draws a hn]
  exact BitVec.getLsbD_or

/-- An instruction that meets an enabled condition is not executed (60 R338). -/
theorem runNext_of_instrHits {s : State} (h : s.instrHits ≠ 0) : runNext s = takeException s.instrBreak s.afterInstrHits :=
  if_pos (by simpa using h)

/-- Settles O22: the overlap of short ranges, one condition by its fields, the four together by their bits. -/
theorem breakpointOverlap : Obligations.BreakpointOverlap := by
  refine ⟨fun dr lin l n hl hn hn8 => touches_iff dr lin hl hn hn8, fun s n k j w lin hn => ?_, fun s => ⟨instrHits_of_rf,
    fun hrf n hn => bit_instrHits hrf hn, fun hhits => ?_, fun w lin j => ?_⟩⟩
  · intro rw len dr enabled
    have hdr : s.bpAddr n = dr := by
      obtain rfl | rfl | rfl | rfl : n = 0 ∨ n = 1 ∨ n = 2 ∨ n = 3 := by omega
      all_goals rfl
    refine ⟨fun hrw hlen => ?_, fun hrw hlen => ?_, fun hrw => bpHit_instr_of_data hrw k lin,
      fun hrw hde => ⟨bpHit_io hrw hde k _, bpHit_io hrw hde k _⟩⟩
    · rw [bpHit_data_iff hrw hlen, bpEnabled_iff, hdr]
      rfl
    · rw [bpHit_instr_iff hrw hlen, bpEnabled_iff, hdr]
  · refine ⟨_, runNext_of_instrHits hhits, fun n hn hbit => ?_⟩
    rw [bit_bFlags _ _ _ hn, hbit, Bool.true_or]
  · exact ⟨s.noted (.data w lin j), rfl, rfl, fun n hn => bit_noted_hits s _ hn⟩

end Sys2Proof.Machine
end

section
/-! PROOFS. The decoder reads exactly what the encoder writes (30_encoding.md R190 to R209): each part of it reads the bytes of its
value, stops as truncated on every front part of them, and answers nothing else. -/

namespace Sys2Proof

variable {α β : Type}

/-- `T` reads the value `a` from the bytes `bs`, whatever follows them, and finds every proper front part of them truncated. -/
structure Reads (T : List Byte → Except DecodeError (α × List Byte)) (a : α) (bs : List Byte) : Prop where
  whole : ∀ rest, T (bs ++ rest) = .ok (a, rest)
  front : ∀ k < bs.length, T (bs.take k) = .error .truncated

theorem reads_pure {T : List Byte → Except DecodeError (α × List Byte)} {a : α} (h : ∀ l, T l = .ok (a, l)) : Reads T a [] where
  whole := h
  front k hk := absurd hk (Nat.not_lt_zero k)

/-- A part that looks at one byte and goes on with the rest. -/
theorem reads_cons {T T' : List Byte → Except DecodeError (α × List Byte)} {a : α} {b : Byte} {bs : List Byte}
    (hnil : T [] = .error .truncated) (hcons : ∀ l, T (b :: l) = T' l) (h : Reads T' a bs) : Reads T a (b :: bs) where
  whole rest := (hcons _).trans (h.whole rest)
  front k hk := by
    cases k with
    | zero => exact hnil
    | succ k => exact (hcons _).trans (h.front k (Nat.lt_of_succ_lt_succ hk))

/-- Two parts, one after the other. -/
theorem reads_bind {T : List Byte → Except DecodeError (α × List Byte)} {U : List Byte → Except DecodeError (β × List Byte)}
    {f : α → List Byte → Except DecodeError (β × List Byte)} {a : α} {b : β} {bs cs : List Byte}
    (hU : ∀ l, U l = T l >>= fun x => f x.1 x.2) (h : Reads T a bs) (hf : Reads (f a) b cs) : Reads U b (bs ++ cs) where
  whole rest := by
    rw [hU, List.append_assoc, h.whole]
    exact hf.whole rest
  front k hk := by
    rw [hU]
    by_cases hkb : k < bs.length
    · rw [List.take_append_of_le_length (Nat.le_of_lt hkb), h.front k hkb]
      rfl
    · rw [List.take_append, List.take_of_length_le (by omega), h.whole]
      exact hf.front _ (by rw [List.length_append] at hk; omega)

/-- A part followed by nothing but the making of the result. -/
theorem reads_map {T : List Byte → Except DecodeError (α × List Byte)} {U : List Byte → Except DecodeError (β × List Byte)}
    (make : α → β) {a : α} {bs : List Byte} (hU : ∀ l, U l = T l >>= fun x => .ok (make x.1, x.2)) (h : Reads T a bs) :
    Reads U (make a) bs := by
  have hmake : Reads U (make a) (bs ++ []) :=
    reads_bind (f := fun a l => .ok (make a, l)) hU h (reads_pure fun _ => rfl)
  rwa [List.append_nil] at hmake

/-! ### Fields and bytes -/

theorem field_modRm (m : BitVec 2) (g r : BitVec 3) :
    field (modRm m g r) 6 2 = m ∧ field (modRm m g r) 3 3 = g ∧ field (modRm m g r) 0 3 = r := by
  revert m g r
  decide

theorem modRm_field (m : Byte) : modRm (field m 6 2) (field m 3 3) (field m 0 3) = m := by
  revert m
  decide

theorem getLsbD_field {w : Nat} (v : BitVec w) (lo len j : Nat) :
    (field v lo len).getLsbD j = (decide (j < len) && v.getLsbD (lo + j)) := BitVec.getLsbD_extractLsb' ..

theorem field_self {w : Nat} (v : BitVec w) : field v 0 w = v := by
  refine BitVec.eq_of_getLsbD_eq fun j hj => ?_
  rw [getLsbD_field, Nat.zero_add, decide_eq_true hj, Bool.true_and]

theorem field_append_low {m n : Nat} (a : BitVec m) (b : BitVec n) : field (a ++ b) 0 n = b := by
  refine BitVec.eq_of_getLsbD_eq fun j hj => ?_
  rw [getLsbD_field, BitVec.getLsbD_append, Nat.zero_add, decide_eq_true hj, if_pos hj, Bool.true_and]

theorem field_append_high {m n : Nat} (a : BitVec m) (b : BitVec n) (lo len : Nat) :
    field (a ++ b) (n + lo) len = field a lo len := by
  refine BitVec.eq_of_getLsbD_eq fun j hj => ?_
  rw [getLsbD_field, getLsbD_field, BitVec.getLsbD_append, if_neg (by omega), show n + lo + j - n = lo + j by omega]

/-- Two fields that stand side by side are one. -/
theorem field_append_field {w : Nat} (v : BitVec w) (lo m n : Nat) : field v (lo + n) m ++ field v lo n = field v lo (m + n) := by
  refine BitVec.eq_of_getLsbD_eq fun j hj => ?_
  rw [BitVec.getLsbD_append, getLsbD_field, getLsbD_field, getLsbD_field, decide_eq_true hj]
  split
  · next h => rw [decide_eq_true h]
  · rw [decide_eq_true (by omega), show lo + n + (j - n) = lo + j by omega]

theorem word16_bytes16 (v : Word16) : word16 (field v 0 8) (field v 8 8) = v :=
  (field_append_field v 0 8 8).trans (field_self v)

theorem word32_bytes32 (v : Word32) : word32 (field v 0 8) (field v 8 8) (field v 16 8) (field v 24 8) = v := by
  have h16 : field v 24 8 ++ field v 16 8 = field v 16 16 := field_append_field v 16 8 8
  have h8 : field v 16 16 ++ field v 8 8 = field v 8 24 := field_append_field v 8 16 8
  have h0 : field v 8 24 ++ field v 0 8 = field v 0 32 := field_append_field v 0 24 8
  unfold word32
  rw [h16, h8, h0, field_self]

theorem bytes16_word16 (b0 b1 : Byte) : bytes16 (word16 b0 b1) = [b0, b1] := by
  have h8 : field (word16 b0 b1) 8 8 = b1 := (field_append_high b1 b0 0 8).trans (field_self b1)
  unfold bytes16
  rw [h8]
  exact congrArg (· :: [b1]) (field_append_low b1 b0)

theorem bytes32_word32 (b0 b1 b2 b3 : Byte) : bytes32 (word32 b0 b1 b2 b3) = [b0, b1, b2, b3] := by
  have h0 : field (word32 b0 b1 b2 b3) 0 8 = b0 := field_append_low _ b0
  have h8 : field (word32 b0 b1 b2 b3) 8 8 = b1 := (field_append_high _ b0 0 8).trans (field_append_low _ b1)
  have h16 : field (word32 b0 b1 b2 b3) 16 8 = b2 :=
    (field_append_high _ b0 8 8).trans ((field_append_high _ b1 0 8).trans (field_append_low _ b2))
  have h24 : field (word32 b0 b1 b2 b3) 24 8 = b3 :=
    (field_append_high _ b0 16 8).trans ((field_append_high _ b1 8 8).trans ((field_append_high b3 b2 0 8).trans (field_self b3)))
  unfold bytes32
  rw [h0, h8, h16, h24]

/-! ### Numbers and displacements -/

theorem reads_take8 (b : Byte) : Reads take8 b [b] := reads_cons rfl (fun _ => rfl) (reads_pure fun _ => rfl)

theorem reads_take16 (v : Word16) : Reads take16 v (bytes16 v) where
  whole rest := congrArg (fun x => Except.ok (x, rest)) (word16_bytes16 v)
  front k hk := by
    match k, hk with
    | 0, _ => rfl
    | 1, _ => rfl

theorem reads_take32 (v : Word32) : Reads take32 v (bytes32 v) where
  whole rest := congrArg (fun x => Except.ok (x, rest)) (word32_bytes32 v)
  front k hk := by
    match k, hk with
    | 0, _ => rfl
    | 1, _ => rfl
    | 2, _ => rfl
    | 3, _ => rfl

theorem reads_takeDisp16 (d : Disp16) : Reads (takeDisp16 d.mod) d d.bytes := by
  cases d with
  | none => exact reads_pure fun _ => rfl
  | d8 d => exact reads_map Disp16.d8 (fun _ => rfl) (reads_take8 d)
  | d16 d => exact reads_map Disp16.d16 (fun _ => rfl) (reads_take16 d)

theorem reads_takeDisp32 (d : Disp32) : Reads (takeDisp32 d.mod) d d.bytes := by
  cases d with
  | none => exact reads_pure fun _ => rfl
  | d8 d => exact reads_map Disp32.d8 (fun _ => rfl) (reads_take8 d)
  | d32 d => exact reads_map Disp32.d32 (fun _ => rfl) (reads_take32 d)

/-! ### Operands -/

/-- The mod field of an operand (30_encoding.md R195). -/
def rmMod : RmOp → BitVec 2
  | .reg _ => 3
  | .mem16 (.direct _) => 0
  | .mem16 (.base _ d) => d.mod
  | .mem32 (.direct _) => 0
  | .mem32 (.base _ d) => d.mod
  | .mem32 (.sib _ _ _ d) => d.mod
  | .mem32 (.sibNoBase _ _ _) => 0

/-- The r/m field of an operand (30_encoding.md R195). -/
def rmField : RmOp → BitVec 3
  | .reg r => r.num
  | .mem16 (.direct _) => 6
  | .mem16 (.base b _) => b.num
  | .mem32 (.direct _) => 5
  | .mem32 (.base b _) => b.num
  | .mem32 (.sib _ _ _ _) => 4
  | .mem32 (.sibNoBase _ _ _) => 4

/-- The bytes of an operand after its ModR/M byte. -/
def rmTail : RmOp → List Byte
  | .reg _ => []
  | .mem16 (.direct d) => bytes16 d
  | .mem16 (.base _ d) => d.bytes
  | .mem32 (.direct d) => bytes32 d
  | .mem32 (.base _ d) => d.bytes
  | .mem32 (.sib s x b d) => modRm s x.num b.num :: d.bytes
  | .mem32 (.sibNoBase s x d) => modRm s x.num 5 :: bytes32 d

theorem encodeRm_eq_cons (g : BitVec 3) (o : RmOp) : encodeRm g o = modRm (rmMod o) g (rmField o) :: rmTail o := by
  cases o with
  | reg r => rfl
  | mem16 a => cases a <;> rfl
  | mem32 a => cases a <;> rfl

theorem Disp16.mod_ne_three (d : Disp16) : d.mod ≠ 3 := by cases d <;> simp [Disp16.mod]

theorem Disp32.mod_ne_three (d : Disp32) : d.mod ≠ 3 := by cases d <;> simp [Disp32.mod]

theorem Disp16.mod_eq_zero {d : Disp16} : d.mod = 0 ↔ d = .none := by cases d <;> simp [Disp16.mod]

theorem Disp32.mod_eq_zero {d : Disp32} : d.mod = 0 ↔ d = .none := by cases d <;> simp [Disp32.mod]

theorem Gpr.num_eq {r q : Gpr} : r.num = q.num ↔ r = q :=
  ⟨fun h => by rw [← Gpr.ofNum_num r, h, Gpr.ofNum_num], fun h => h ▸ rfl⟩

theorem Base16.num_eq {b c : Base16} : b.num = c.num ↔ b = c :=
  ⟨fun h => by rw [← Base16.ofNum_num b, h, Base16.ofNum_num], fun h => h ▸ rfl⟩

/-- BP alone takes the place of the direct form (30_encoding.md R202). -/
theorem base16_encodable_iff (b : Base16) (d : Disp16) : (Addr16.base b d).encodable = true ↔ ¬ (d.mod = 0 ∧ b.num = 6) := by
  have hbp : b.num = 6 ↔ b = .bp := Base16.num_eq (c := .bp)
  rw [Disp16.mod_eq_zero, hbp]
  unfold Addr16.encodable
  split
  · next h => cases h; simp
  · next h => simp only [true_iff]; rintro ⟨rfl, rfl⟩; exact h rfl

/-- ESP takes the place of a SIB byte and EBP alone that of the direct form (30_encoding.md R200). -/
theorem base32_encodable_iff (b : Gpr) (d : Disp32) :
    (Addr32.base b d).encodable = true ↔ b.num ≠ 4 ∧ ¬ (d.mod = 0 ∧ b.num = 5) := by
  have hesp : b.num = 4 ↔ b = .esp := Gpr.num_eq (q := .esp)
  have hebp : b.num = 5 ↔ b = .ebp := Gpr.num_eq (q := .ebp)
  rw [Disp32.mod_eq_zero, hebp, Ne, hesp]
  unfold Addr32.encodable
  cases b <;> cases d <;> simp

/-- EBP alone as the base of a SIB byte takes the place of no base (30_encoding.md R201). -/
theorem sib_encodable_iff (s : BitVec 2) (x b : Gpr) (d : Disp32) :
    (Addr32.sib s x b d).encodable = true ↔ ¬ (d.mod = 0 ∧ b.num = 5) := by
  have hebp : b.num = 5 ↔ b = .ebp := Gpr.num_eq (q := .ebp)
  rw [Disp32.mod_eq_zero, hebp]
  unfold Addr32.encodable
  cases b <;> cases d <;> simp

theorem reads_takeRm16 {m : Addr16} (h : m.encodable = true) :
    Reads (takeRm .s16 (rmMod (.mem16 m)) (rmField (.mem16 m))) (.mem16 m) (rmTail (.mem16 m)) := by
  cases m with
  | direct d => exact reads_map (fun d => RmOp.mem16 (.direct d)) (fun _ => rfl) (reads_take16 d)
  | base b d =>
    refine reads_map (fun d => RmOp.mem16 (.base b d)) (fun l => ?_) (reads_takeDisp16 d)
    show takeRm .s16 d.mod b.num l = _
    unfold takeRm
    rw [if_neg d.mod_ne_three, Base16.ofNum_num]
    exact if_neg ((base16_encodable_iff b d).mp h)

/-- An operand with a SIB byte (30_encoding.md R201). -/
theorem takeRm_sib {mod : BitVec 2} (h : mod ≠ 3) (sib : Byte) (l : List Byte) :
    takeRm .s32 mod 4 (sib :: l) =
      if mod = 0 ∧ field sib 0 3 = 5
        then take32 l >>= fun y => .ok (.mem32 (.sibNoBase (field sib 6 2) (Gpr.ofNum (field sib 3 3)) y.1), y.2)
        else takeDisp32 mod l >>= fun y =>
          .ok (.mem32 (.sib (field sib 6 2) (Gpr.ofNum (field sib 3 3)) (Gpr.ofNum (field sib 0 3)) y.1), y.2) := by
  unfold takeRm
  rw [if_neg h]
  rfl

theorem takeRm_sib_nil {mod : BitVec 2} (h : mod ≠ 3) : takeRm .s32 mod 4 [] = .error .truncated := by
  unfold takeRm
  rw [if_neg h]
  rfl

theorem reads_takeRm32 {m : Addr32} (h : m.encodable = true) :
    Reads (takeRm .s32 (rmMod (.mem32 m)) (rmField (.mem32 m))) (.mem32 m) (rmTail (.mem32 m)) := by
  cases m with
  | direct d => exact reads_map (fun d => RmOp.mem32 (.direct d)) (fun _ => rfl) (reads_take32 d)
  | base b d =>
    obtain ⟨hesp, hebp⟩ := (base32_encodable_iff b d).mp h
    refine reads_map (fun d => RmOp.mem32 (.base b d)) (fun l => ?_) (reads_takeDisp32 d)
    show takeRm .s32 d.mod b.num l = _
    unfold takeRm
    rw [if_neg d.mod_ne_three, Gpr.ofNum_num]
    dsimp only
    rw [if_neg hesp]
    exact if_neg hebp
  | sib s x b d =>
    have hbase := (sib_encodable_iff s x b d).mp h
    obtain ⟨hs, hx, hb⟩ := field_modRm s x.num b.num
    refine reads_cons (takeRm_sib_nil d.mod_ne_three) (fun l => ?_)
      (reads_map (fun d => RmOp.mem32 (.sib s x b d)) (fun _ => rfl) (reads_takeDisp32 d))
    refine (takeRm_sib d.mod_ne_three _ l).trans ?_
    rw [hs, hx, hb, if_neg hbase, Gpr.ofNum_num, Gpr.ofNum_num]
  | sibNoBase s x d =>
    obtain ⟨hs, hx, hb⟩ := field_modRm s x.num 5
    refine reads_cons rfl (fun l => ?_) (reads_map (fun d => RmOp.mem32 (.sibNoBase s x d)) (fun _ => rfl) (reads_take32 d))
    refine (takeRm_sib (mod := 0) (by decide) _ l).trans ?_
    rw [hs, hx, hb, if_pos ⟨rfl, rfl⟩, Gpr.ofNum_num]

theorem reads_takeRm {a : OpSize} {o : RmOp} (h : o.fits a = true) : Reads (takeRm a (rmMod o) (rmField o)) o (rmTail o) := by
  cases o with
  | reg r => exact reads_pure fun l => congrArg (fun q => Except.ok (RmOp.reg q, l)) (Gpr.ofNum_num r)
  | mem16 m =>
    obtain ⟨ha, hm⟩ : a = .s16 ∧ m.encodable = true := by simpa [RmOp.fits] using h
    subst ha
    exact reads_takeRm16 hm
  | mem32 m =>
    obtain ⟨ha, hm⟩ : a = .s32 ∧ m.encodable = true := by simpa [RmOp.fits] using h
    subst ha
    exact reads_takeRm32 hm

/-! ### The instructions -/

theorem takeOperand_eq (make : RmOp → Instr) (a : OpSize) (m : Byte) (l : List Byte) : takeOperand make a m l =
    takeRm a (field m 6 2) (field m 0 3) l >>= fun x => .ok (make x.1, x.2) := rfl

theorem reads_takeOperand {a : OpSize} {o : RmOp} (make : RmOp → Instr) (g : BitVec 3) (h : o.fits a = true) :
    Reads (takeOperand make a (modRm (rmMod o) g (rmField o))) (make o) (rmTail o) := by
  obtain ⟨hmod, -, hrm⟩ := field_modRm (rmMod o) g (rmField o)
  refine reads_map make (fun l => ?_) (reads_takeRm h)
  rw [takeOperand_eq, hmod, hrm]

/-- An opcode whose operand's reg field selects the instruction. -/
theorem reads_group {T : List Byte → Except DecodeError (Instr × List Byte)} {a : OpSize} {o : RmOp} {make : RmOp → Instr}
    {g : BitVec 3} (hnil : T [] = .error .truncated) (hcons : ∀ m l, field m 3 3 = g → T (m :: l) = takeOperand make a m l)
    (h : o.fits a = true) : Reads T (make o) (encodeRm g o) := by
  obtain ⟨-, hreg, -⟩ := field_modRm (rmMod o) g (rmField o)
  rw [encodeRm_eq_cons]
  exact reads_cons hnil (fun l => hcons _ l hreg) (reads_takeOperand make g h)

theorem reads_takeSpecial (make : BitVec 2 → BitVec 3 → Gpr → Instr) (m : BitVec 2) (n : BitVec 3) (r : Gpr) :
    Reads (takeSpecial make) (make m n r) [modRm m n r.num] := by
  obtain ⟨hm, hn, hr⟩ := field_modRm m n r.num
  refine reads_cons rfl (fun l => ?_) (reads_pure fun _ => rfl)
  show Except.ok (make _ _ (Gpr.ofNum _), l) = _
  rw [hm, hn, hr, Gpr.ofNum_num]

theorem reads_takeFar {z : OpSize} {t : FarPtr} (h : t.fits z = true) : Reads (takeFar z) t (encodeFar t) := by
  cases t with
  | ptr16 off sel =>
    have hz : z = .s16 := by simpa [FarPtr.fits] using h
    subst hz
    exact reads_bind (f := fun off l => take16 l >>= fun y => .ok (.ptr16 off y.1, y.2)) (fun _ => rfl) (reads_take16 off)
      (reads_map (FarPtr.ptr16 off) (fun _ => rfl) (reads_take16 sel))
  | ptr32 off sel =>
    have hz : z = .s32 := by simpa [FarPtr.fits] using h
    subst hz
    exact reads_bind (f := fun off l => take16 l >>= fun y => .ok (.ptr32 off y.1, y.2)) (fun _ => rfl) (reads_take32 off)
      (reads_map (FarPtr.ptr32 off) (fun _ => rfl) (reads_take16 sel))

theorem decodeGroup00_cons (p : List Prefix) (a : OpSize) (m : Byte) (l : List Byte) : decodeGroup00 p a (m :: l) =
    if field m 3 3 = 0 then takeOperand (.sldt p) a m l
    else if field m 3 3 = 1 then takeOperand (.str p) a m l
    else if field m 3 3 = 2 then takeOperand (.lldt p) a m l
    else if field m 3 3 = 3 then takeOperand (.ltr p) a m l
    else if field m 3 3 = 4 ∨ field m 3 3 = 5 then .error .outsideSpec
    else .error .invalidOpcode := rfl

theorem decodeGroup01_cons (p : List Prefix) (a : OpSize) (m : Byte) (l : List Byte) : decodeGroup01 p a (m :: l) =
    if field m 3 3 = 0 then takeOperand (.sgdt p) a m l
    else if field m 3 3 = 1 then takeOperand (.sidt p) a m l
    else if field m 3 3 = 2 then takeOperand (.lgdt p) a m l
    else if field m 3 3 = 3 then takeOperand (.lidt p) a m l
    else if field m 3 3 = 4 then takeOperand (.smsw p) a m l
    else if field m 3 3 = 5 then .error .invalidOpcode
    else if field m 3 3 = 6 then takeOperand (.lmsw p) a m l
    else if field m 6 2 = 3 then .error .invalidOpcode
    else .error .outsideSpec := rfl

theorem reads_group00 {p : List Prefix} {z a : OpSize} {o : RmOp} {make : RmOp → Instr} {g : BitVec 3} (h : o.fits a = true)
    (hsel : ∀ m l, field m 3 3 = g → decodeGroup00 p a (m :: l) = takeOperand make a m l) :
    Reads (decodeBody p z a) (make o) (0x0F :: 0x00 :: encodeRm g o) :=
  reads_cons rfl (fun _ => rfl) (reads_cons rfl (fun _ => rfl) (reads_group (T := decodeGroup00 p a) rfl hsel h))

theorem reads_group01 {p : List Prefix} {z a : OpSize} {o : RmOp} {make : RmOp → Instr} {g : BitVec 3} (h : o.fits a = true)
    (hsel : ∀ m l, field m 3 3 = g → decodeGroup01 p a (m :: l) = takeOperand make a m l) :
    Reads (decodeBody p z a) (make o) (0x0F :: 0x01 :: encodeRm g o) :=
  reads_cons rfl (fun _ => rfl) (reads_cons rfl (fun _ => rfl) (reads_group (T := decodeGroup01 p a) rfl hsel h))

/-- A special-register move after 0F. -/
theorem reads_special {p : List Prefix} {z a : OpSize} (make : BitVec 2 → BitVec 3 → Gpr → Instr) {b : Byte}
    (hsel : ∀ l, decodeTwoByte p a (b :: l) = takeSpecial make l) (m : BitVec 2) (n : BitVec 3) (r : Gpr) :
    Reads (decodeBody p z a) (make m n r) [0x0F, b, modRm m n r.num] :=
  reads_cons rfl (fun _ => rfl) (reads_cons (T := decodeTwoByte p a) rfl hsel (reads_takeSpecial make m n r))

/-- An instruction of two bytes. -/
theorem reads_twoBytes {p : List Prefix} {z a : OpSize} {i : Instr} {b : Byte}
    (hsel : ∀ l, decodeTwoByte p a (b :: l) = .ok (i, l)) : Reads (decodeBody p z a) i [0x0F, b] :=
  reads_cons rfl (fun _ => rfl) (reads_cons (T := decodeTwoByte p a) rfl hsel (reads_pure fun _ => rfl))

/-- The opcodes D8 to DF of the coprocessor (30_encoding.md R208). -/
theorem field_esc (x : BitVec 3) : field ((0x1B : BitVec 5) ++ x : Byte) 3 5 = 0x1B ∧ field ((0x1B : BitVec 5) ++ x : Byte) 0 3 = x := by
  revert x
  decide

theorem decodeBody_esc (p : List Prefix) (z a : OpSize) (x : BitVec 3) (l : List Byte) :
    decodeBody p z a (((0x1B : BitVec 5) ++ x : Byte) :: l) =
      take8 l >>= fun y => takeOperand (.esc p x (field y.1 3 3)) a y.1 y.2 := by
  obtain ⟨hop, hx⟩ := field_esc x
  have hne : ∀ b : Byte, field b 3 5 ≠ 0x1B → ((0x1B : BitVec 5) ++ x : Byte) ≠ b := fun b hb he => hb (he ▸ hop)
  refine (if_neg (hne 0x0F (by decide))).trans ((if_neg (hne 0x9A (by decide))).trans ((if_neg (hne 0x9B (by decide))).trans
    ((if_neg (hne 0xCC (by decide))).trans ((if_neg (hne 0xCF (by decide))).trans ((if_neg (hne 0xFF (by decide))).trans
    ((if_pos hop).trans ?_))))))
  rw [hx]

theorem reads_decodeBody {d : OpSize} {i : Instr} (h : i.operandsFit d = true) :
    Reads (decodeBody i.prefixes (Prefix.operandSize d i.prefixes) (Prefix.addressSize d i.prefixes)) i (encodeBody i) := by
  cases i with
  | sgdt p o => exact reads_group01 h fun m l hg => by rw [decodeGroup01_cons, hg]; rfl
  | sidt p o => exact reads_group01 h fun m l hg => by rw [decodeGroup01_cons, hg]; rfl
  | lgdt p o => exact reads_group01 h fun m l hg => by rw [decodeGroup01_cons, hg]; rfl
  | lidt p o => exact reads_group01 h fun m l hg => by rw [decodeGroup01_cons, hg]; rfl
  | smsw p o => exact reads_group01 h fun m l hg => by rw [decodeGroup01_cons, hg]; rfl
  | lmsw p o => exact reads_group01 h fun m l hg => by rw [decodeGroup01_cons, hg]; rfl
  | sldt p o => exact reads_group00 h fun m l hg => by rw [decodeGroup00_cons, hg]; rfl
  | str p o => exact reads_group00 h fun m l hg => by rw [decodeGroup00_cons, hg]; rfl
  | lldt p o => exact reads_group00 h fun m l hg => by rw [decodeGroup00_cons, hg]; rfl
  | ltr p o => exact reads_group00 h fun m l hg => by rw [decodeGroup00_cons, hg]; rfl
  | movFromCr p m n r => exact reads_special (.movFromCr p) (fun _ => rfl) m n r
  | movToCr p m n r => exact reads_special (.movToCr p) (fun _ => rfl) m n r
  | movFromDr p m n r => exact reads_special (.movFromDr p) (fun _ => rfl) m n r
  | movToDr p m n r => exact reads_special (.movToDr p) (fun _ => rfl) m n r
  | movFromTr p m n r => exact reads_special (.movFromTr p) (fun _ => rfl) m n r
  | movToTr p m n r => exact reads_special (.movToTr p) (fun _ => rfl) m n r
  | clts p => exact reads_twoBytes fun _ => rfl
  | wrmsr p => exact reads_twoBytes fun _ => rfl
  | rdtsc p => exact reads_twoBytes fun _ => rfl
  | rdmsr p => exact reads_twoBytes fun _ => rfl
  | rdpmc p => exact reads_twoBytes fun _ => rfl
  | cpuid p => exact reads_twoBytes fun _ => rfl
  | int3 p => exact reads_cons rfl (fun _ => rfl) (reads_pure fun _ => rfl)
  | iret p => exact reads_cons rfl (fun _ => rfl) (reads_pure fun _ => rfl)
  | wait p => exact reads_cons rfl (fun _ => rfl) (reads_pure fun _ => rfl)
  | callPtr p t => exact reads_cons rfl (fun _ => rfl) (reads_map (Instr.callPtr p) (fun _ => rfl) (reads_takeFar h))
  | callMem p o =>
    refine reads_cons (T' := fun l => take8 l >>= fun y =>
      if field y.1 3 3 = 3 then takeOperand (.callMem p) (Prefix.addressSize d p) y.1 y.2 else .error .outsideSpec) rfl
      (fun _ => rfl) (reads_group rfl (fun m l hg => ?_) h)
    exact if_pos hg
  | esc p x g o =>
    refine reads_cons rfl (decodeBody_esc p _ _ x) (reads_group rfl (fun m l hg => ?_) h)
    rw [← hg]
    rfl

/-! ### Prefixes -/

/-- No instruction's first byte after its prefixes is one of them (30_encoding.md R191, R208). -/
theorem encodeBody_eq_cons (i : Instr) : ∃ b bs, encodeBody i = b :: bs ∧ Prefix.ofByte b = none := by
  cases i with
  | callPtr p t => exact ⟨0x9A, _, rfl, rfl⟩
  | callMem p o => exact ⟨0xFF, _, rfl, rfl⟩
  | int3 p => exact ⟨0xCC, _, rfl, rfl⟩
  | iret p => exact ⟨0xCF, _, rfl, rfl⟩
  | wait p => exact ⟨0x9B, _, rfl, rfl⟩
  | esc p x g o => exact ⟨_, _, rfl, (by decide : ∀ x : BitVec 3, Prefix.ofByte ((0x1B : BitVec 5) ++ x : Byte) = none) x⟩
  | _ => exact ⟨0x0F, _, rfl, rfl⟩

theorem splitPrefixes_of_none {b : Byte} (h : Prefix.ofByte b = none) (bs : List Byte) :
    splitPrefixes (b :: bs) = ([], b :: bs) := by
  unfold splitPrefixes
  rw [h]

/-- The prefixes end where the first other byte stands, or where the bytes end. -/
theorem splitPrefixes_append (p : List Prefix) {l : List Byte} (h : splitPrefixes l = ([], l)) :
    splitPrefixes (p.map Prefix.byte ++ l) = (p, l) := by
  induction p with
  | nil => exact h
  | cons q p ih =>
    simp only [List.map_cons, List.cons_append, splitPrefixes, Prefix.ofByte_byte, ih]

theorem splitPrefixes_eq (l : List Byte) : l = (splitPrefixes l).1.map Prefix.byte ++ (splitPrefixes l).2 := by
  induction l with
  | nil => rfl
  | cons b l ih =>
    unfold splitPrefixes
    cases hb : Prefix.ofByte b with
    | none => rfl
    | some x =>
      simp only [List.map_cons, List.cons_append, Prefix.byte_ofByte hb]
      rw [← ih]

/-! ### The whole instruction -/

theorem decode_of_body {d : OpSize} {bs l rest : List Byte} {p : List Prefix} {i : Instr} (h : splitPrefixes bs = (p, l))
    (hbody : decodeBody p (Prefix.operandSize d p) (Prefix.addressSize d p) l = .ok (i, rest)) :
    decode d bs = if i.size ≤ 15 then .ok (i, rest) else .error (.tooLong i) := by
  unfold decode
  rw [h]
  dsimp only
  rw [hbody]

theorem decode_of_error {d : OpSize} {bs l : List Byte} {p : List Prefix} {e : DecodeError} (h : splitPrefixes bs = (p, l))
    (hbody : decodeBody p (Prefix.operandSize d p) (Prefix.addressSize d p) l = .error e) : decode d bs = .error e := by
  unfold decode
  rw [h]
  dsimp only
  rw [hbody]

/-- The bytes of an instruction decode to it, or to the error of its length (30_encoding.md R190). -/
theorem decode_encode {d : OpSize} {i : Instr} (h : i.operandsFit d = true) (rest : List Byte) :
    decode d (encode i ++ rest) = if i.size ≤ 15 then .ok (i, rest) else .error (.tooLong i) := by
  obtain ⟨b, bs, hbody, hb⟩ := encodeBody_eq_cons i
  have hsplit : splitPrefixes (encode i ++ rest) = (i.prefixes, encodeBody i ++ rest) := by
    unfold encode
    rw [List.append_assoc]
    exact splitPrefixes_append _ (by rw [hbody]; exact splitPrefixes_of_none hb _)
  exact decode_of_body hsplit ((reads_decodeBody h).whole rest)

/-- A proper front part of the bytes of an instruction is truncated. -/
theorem decode_encode_take {d : OpSize} {i : Instr} (h : i.operandsFit d = true) {k : Nat} (hk : k < (encode i).length) :
    decode d ((encode i).take k) = .error .truncated := by
  obtain ⟨b, bs, hbody, hb⟩ := encodeBody_eq_cons i
  have htake : (encode i).take k = (i.prefixes.take k).map Prefix.byte ++ (encodeBody i).take (k - i.prefixes.length) := by
    unfold encode
    rw [List.take_append, List.map_take, List.length_map]
  by_cases hkp : k ≤ i.prefixes.length
  · have hsplit : splitPrefixes ((encode i).take k) = (i.prefixes.take k, []) := by
      rw [htake, Nat.sub_eq_zero_of_le hkp, List.take_zero]
      exact splitPrefixes_append _ rfl
    exact decode_of_error hsplit rfl
  · obtain ⟨m, hm⟩ : ∃ m, k - i.prefixes.length = m + 1 := ⟨k - i.prefixes.length - 1, by omega⟩
    have hsplit : splitPrefixes ((encode i).take k) = (i.prefixes, (encodeBody i).take (m + 1)) := by
      rw [htake, hm, List.take_of_length_le (by omega), hbody, List.take_succ_cons]
      exact splitPrefixes_append _ (splitPrefixes_of_none hb _)
    have hlen : m + 1 < (encodeBody i).length := by
      unfold encode at hk
      rw [List.length_append, List.length_map] at hk
      omega
    exact decode_of_error hsplit ((reads_decodeBody h).front _ hlen)

/-! ### Nothing else is an instruction -/

theorem except_bind_ok {ε : Type} {m : Except ε α} {f : α → Except ε β} {b : β} (h : m >>= f = .ok b) :
    ∃ a, m = .ok a ∧ f a = .ok b := by
  cases m with
  | error e => cases h
  | ok a => exact ⟨a, rfl, h⟩

theorem take8_ok {l rest : List Byte} {b : Byte} (h : take8 l = .ok (b, rest)) : l = b :: rest := by
  match l, h with
  | _ :: _, rfl => rfl

theorem take16_ok {l rest : List Byte} {v : Word16} (h : take16 l = .ok (v, rest)) : l = bytes16 v ++ rest := by
  match l, h with
  | b0 :: b1 :: _, rfl => rw [bytes16_word16]; rfl

theorem take32_ok {l rest : List Byte} {v : Word32} (h : take32 l = .ok (v, rest)) : l = bytes32 v ++ rest := by
  match l, h with
  | b0 :: b1 :: b2 :: b3 :: _, rfl => rw [bytes32_word32]; rfl

theorem takeDisp16_ok {mod : BitVec 2} {l rest : List Byte} {d : Disp16} (hmod : mod ≠ 3) (h : takeDisp16 mod l = .ok (d, rest)) :
    d.mod = mod ∧ l = d.bytes ++ rest := by
  unfold takeDisp16 at h
  split at h
  · next h0 =>
    cases h
    exact ⟨h0.symm, rfl⟩
  next h0 =>
  split at h
  · next h1 =>
    obtain ⟨⟨v, bs⟩, hv, h⟩ := except_bind_ok h
    cases h
    exact ⟨h1.symm, take8_ok hv⟩
  · next h1 =>
    obtain ⟨⟨v, bs⟩, hv, h⟩ := except_bind_ok h
    cases h
    have h2 : mod = 2 := by
      revert mod
      decide
    exact ⟨h2.symm, take16_ok hv⟩

theorem takeDisp32_ok {mod : BitVec 2} {l rest : List Byte} {d : Disp32} (hmod : mod ≠ 3) (h : takeDisp32 mod l = .ok (d, rest)) :
    d.mod = mod ∧ l = d.bytes ++ rest := by
  unfold takeDisp32 at h
  split at h
  · next h0 =>
    cases h
    exact ⟨h0.symm, rfl⟩
  next h0 =>
  split at h
  · next h1 =>
    obtain ⟨⟨v, bs⟩, hv, h⟩ := except_bind_ok h
    cases h
    exact ⟨h1.symm, take8_ok hv⟩
  · next h1 =>
    obtain ⟨⟨v, bs⟩, hv, h⟩ := except_bind_ok h
    cases h
    have h2 : mod = 2 := by
      revert mod
      decide
    exact ⟨h2.symm, take32_ok hv⟩

/-- `o` is the operand of address size `a` with these fields, and `l` its further bytes before `rest`. -/
structure Operand (a : OpSize) (mod : BitVec 2) (rm : BitVec 3) (o : RmOp) (l rest : List Byte) : Prop where
  fits : o.fits a = true
  mod : rmMod o = mod
  rm : rmField o = rm
  bytes : l = rmTail o ++ rest

theorem takeRm16_ok {mod : BitVec 2} {rm : BitVec 3} {l rest : List Byte} {o : RmOp} (hmod : mod ≠ 3)
    (h : takeRm .s16 mod rm l = .ok (o, rest)) : Operand .s16 mod rm o l rest := by
  unfold takeRm at h
  rw [if_neg hmod] at h
  dsimp only at h
  split at h
  · next hdirect =>
    obtain ⟨⟨v, bs⟩, hv, h⟩ := except_bind_ok h
    cases h
    exact ⟨rfl, hdirect.1.symm, hdirect.2.symm, take16_ok hv⟩
  · next hbase =>
    obtain ⟨⟨d, bs⟩, hd, h⟩ := except_bind_ok h
    cases h
    obtain ⟨hdmod, hl⟩ := takeDisp16_ok hmod hd
    refine ⟨(base16_encodable_iff _ d).mpr ?_, hdmod, Base16.num_ofNum rm, hl⟩
    rwa [hdmod, Base16.num_ofNum]

theorem takeRm32_ok {mod : BitVec 2} {rm : BitVec 3} {l rest : List Byte} {o : RmOp} (hmod : mod ≠ 3)
    (h : takeRm .s32 mod rm l = .ok (o, rest)) : Operand .s32 mod rm o l rest := by
  by_cases hsib : rm = 4
  · subst hsib
    cases l with
    | nil =>
      rw [takeRm_sib_nil hmod] at h
      cases h
    | cons sib l =>
      rw [takeRm_sib hmod] at h
      split at h
      · next hno =>
        obtain ⟨⟨v, bs⟩, hv, h⟩ := except_bind_ok h
        cases h
        refine ⟨rfl, hno.1.symm, rfl, ?_⟩
        show _ = modRm (field sib 6 2) (Gpr.ofNum (field sib 3 3)).num 5 :: (bytes32 v ++ _)
        rw [take32_ok hv, Gpr.num_ofNum, ← hno.2, modRm_field]
      · next hbase =>
        obtain ⟨⟨d, bs⟩, hd, h⟩ := except_bind_ok h
        cases h
        obtain ⟨hdmod, hl⟩ := takeDisp32_ok hmod hd
        refine ⟨(sib_encodable_iff _ _ _ d).mpr ?_, hdmod, rfl, ?_⟩
        · rwa [hdmod, Gpr.num_ofNum]
        · show _ = modRm (field sib 6 2) (Gpr.ofNum (field sib 3 3)).num (Gpr.ofNum (field sib 0 3)).num :: (d.bytes ++ _)
          rw [hl, Gpr.num_ofNum, Gpr.num_ofNum, modRm_field]
  · unfold takeRm at h
    rw [if_neg hmod] at h
    dsimp only at h
    rw [if_neg hsib] at h
    split at h
    · next hdirect =>
      obtain ⟨⟨v, bs⟩, hv, h⟩ := except_bind_ok h
      cases h
      exact ⟨rfl, hdirect.1.symm, hdirect.2.symm, take32_ok hv⟩
    · next hbase =>
      obtain ⟨⟨d, bs⟩, hd, h⟩ := except_bind_ok h
      cases h
      obtain ⟨hdmod, hl⟩ := takeDisp32_ok hmod hd
      refine ⟨(base32_encodable_iff _ d).mpr ⟨?_, ?_⟩, hdmod, Gpr.num_ofNum rm, hl⟩
      · rwa [Gpr.num_ofNum]
      · rwa [hdmod, Gpr.num_ofNum]

theorem takeRm_ok {a : OpSize} {mod : BitVec 2} {rm : BitVec 3} {l rest : List Byte} {o : RmOp}
    (h : takeRm a mod rm l = .ok (o, rest)) : Operand a mod rm o l rest := by
  by_cases hmod : mod = 3
  · unfold takeRm at h
    rw [if_pos hmod] at h
    cases h
    exact ⟨rfl, hmod.symm, Gpr.num_ofNum rm, rfl⟩
  · cases a with
    | s16 => exact takeRm16_ok hmod h
    | s32 => exact takeRm32_ok hmod h

/-- `i` is an instruction with the prefixes `p`, and `l` the bytes of its body before `rest`. -/
structure Body (d : OpSize) (p : List Prefix) (i : Instr) (l rest : List Byte) : Prop where
  prefixes : i.prefixes = p
  fits : i.operandsFit d = true
  bytes : l = encodeBody i ++ rest

theorem takeOperand_ok {make : RmOp → Instr} {a : OpSize} {m : Byte} {l rest : List Byte} {i : Instr}
    (h : takeOperand make a m l = .ok (i, rest)) :
    ∃ o, i = make o ∧ o.fits a = true ∧ m :: l = encodeRm (field m 3 3) o ++ rest := by
  rw [takeOperand_eq] at h
  obtain ⟨⟨o, bs⟩, ho, h⟩ := except_bind_ok h
  cases h
  obtain ⟨hfits, hmod, hrm, hl⟩ := takeRm_ok ho
  refine ⟨o, rfl, hfits, ?_⟩
  rw [encodeRm_eq_cons, hmod, hrm, modRm_field, hl]
  rfl

theorem takeSpecial_ok {make : BitVec 2 → BitVec 3 → Gpr → Instr} {l rest : List Byte} {i : Instr}
    (h : takeSpecial make l = .ok (i, rest)) : ∃ m n r, i = make m n r ∧ l = modRm m n r.num :: rest := by
  obtain ⟨⟨b, bs⟩, hb, h⟩ := except_bind_ok h
  cases h
  refine ⟨_, _, _, rfl, ?_⟩
  rw [take8_ok hb, Gpr.num_ofNum, modRm_field]

theorem takeFar_ok {z : OpSize} {l rest : List Byte} {t : FarPtr} (h : takeFar z l = .ok (t, rest)) :
    t.fits z = true ∧ l = encodeFar t ++ rest := by
  cases z with
  | s16 =>
    obtain ⟨⟨off, bs⟩, hoff, h⟩ := except_bind_ok h
    obtain ⟨⟨sel, cs⟩, hsel, h⟩ := except_bind_ok h
    cases h
    exact ⟨rfl, by rw [take16_ok hoff, take16_ok hsel, encodeFar, List.append_assoc]⟩
  | s32 =>
    obtain ⟨⟨off, bs⟩, hoff, h⟩ := except_bind_ok h
    obtain ⟨⟨sel, cs⟩, hsel, h⟩ := except_bind_ok h
    cases h
    exact ⟨rfl, by rw [take32_ok hoff, take16_ok hsel, encodeFar, List.append_assoc]⟩

/-- An instruction of a group after two opcode bytes. -/
theorem body_of_takeOperand {d : OpSize} {p : List Prefix} {make : RmOp → Instr} {a : OpSize} {g : BitVec 3} {m : Byte}
    {l rest opcode : List Byte} {i : Instr} (h : takeOperand make a m l = .ok (i, rest)) (hg : field m 3 3 = g)
    (hmake : ∀ o, (make o).prefixes = p ∧ (make o).operandsFit d = o.fits a ∧ encodeBody (make o) = opcode ++ encodeRm g o) :
    Body d p i (opcode ++ m :: l) rest := by
  obtain ⟨o, rfl, hfits, hl⟩ := takeOperand_ok h
  obtain ⟨hp, hfit, hcode⟩ := hmake o
  exact ⟨hp, hfit.trans hfits, by rw [hcode, hl, hg, List.append_assoc]⟩

theorem body_of_takeSpecial {d : OpSize} {p : List Prefix} {make : BitVec 2 → BitVec 3 → Gpr → Instr} {b : Byte}
    {l rest : List Byte} {i : Instr} (h : takeSpecial make l = .ok (i, rest))
    (hmake : ∀ m n r, (make m n r).prefixes = p ∧ (make m n r).operandsFit d = true
      ∧ encodeBody (make m n r) = [0x0F, b, modRm m n r.num]) : Body d p i (0x0F :: b :: l) rest := by
  obtain ⟨m, n, r, rfl, hl⟩ := takeSpecial_ok h
  obtain ⟨hp, hfit, hcode⟩ := hmake m n r
  exact ⟨hp, hfit, by rw [hcode, hl]; rfl⟩

theorem decodeGroup00_ok {d : OpSize} {p : List Prefix} {l rest : List Byte} {i : Instr}
    (h : decodeGroup00 p (Prefix.addressSize d p) l = .ok (i, rest)) : Body d p i (0x0F :: 0x00 :: l) rest := by
  cases l with
  | nil => cases h
  | cons m l =>
    rw [decodeGroup00_cons] at h
    split_ifs at h with h0 h1 h2 h3
    · exact body_of_takeOperand (opcode := [0x0F, 0x00]) h h0 fun _ => ⟨rfl, rfl, rfl⟩
    · exact body_of_takeOperand (opcode := [0x0F, 0x00]) h h1 fun _ => ⟨rfl, rfl, rfl⟩
    · exact body_of_takeOperand (opcode := [0x0F, 0x00]) h h2 fun _ => ⟨rfl, rfl, rfl⟩
    · exact body_of_takeOperand (opcode := [0x0F, 0x00]) h h3 fun _ => ⟨rfl, rfl, rfl⟩

theorem decodeGroup01_ok {d : OpSize} {p : List Prefix} {l rest : List Byte} {i : Instr}
    (h : decodeGroup01 p (Prefix.addressSize d p) l = .ok (i, rest)) : Body d p i (0x0F :: 0x01 :: l) rest := by
  cases l with
  | nil => cases h
  | cons m l =>
    rw [decodeGroup01_cons] at h
    split_ifs at h with h0 h1 h2 h3 h4 h5 h6 h7
    · exact body_of_takeOperand (opcode := [0x0F, 0x01]) h h0 fun _ => ⟨rfl, rfl, rfl⟩
    · exact body_of_takeOperand (opcode := [0x0F, 0x01]) h h1 fun _ => ⟨rfl, rfl, rfl⟩
    · exact body_of_takeOperand (opcode := [0x0F, 0x01]) h h2 fun _ => ⟨rfl, rfl, rfl⟩
    · exact body_of_takeOperand (opcode := [0x0F, 0x01]) h h3 fun _ => ⟨rfl, rfl, rfl⟩
    · exact body_of_takeOperand (opcode := [0x0F, 0x01]) h h4 fun _ => ⟨rfl, rfl, rfl⟩
    · exact body_of_takeOperand (opcode := [0x0F, 0x01]) h h6 fun _ => ⟨rfl, rfl, rfl⟩

/-- An answer of one of two branches. -/
theorem ite_cases {c P : Prop} [Decidable c] {m n x : α} (h : (if c then m else n) = x) (hpos : c → m = x → P)
    (hneg : n = x → P) : P := by
  split at h
  · next hc => exact hpos hc h
  · exact hneg h

theorem decodeTwoByte_cons (p : List Prefix) (a : OpSize) (b : Byte) (l : List Byte) : decodeTwoByte p a (b :: l) =
    if b = 0x00 then decodeGroup00 p a l
    else if b = 0x01 then decodeGroup01 p a l
    else if b = 0x06 then .ok (.clts p, l)
    else if b = 0x20 then takeSpecial (.movFromCr p) l
    else if b = 0x21 then takeSpecial (.movFromDr p) l
    else if b = 0x22 then takeSpecial (.movToCr p) l
    else if b = 0x23 then takeSpecial (.movToDr p) l
    else if b = 0x24 then takeSpecial (.movFromTr p) l
    else if b = 0x25 then .error .invalidOpcode
    else if b = 0x26 then takeSpecial (.movToTr p) l
    else if b = 0x27 then .error .invalidOpcode
    else if b = 0x30 then .ok (.wrmsr p, l)
    else if b = 0x31 then .ok (.rdtsc p, l)
    else if b = 0x32 then .ok (.rdmsr p, l)
    else if b = 0x33 then .ok (.rdpmc p, l)
    else if b = 0xA2 then .ok (.cpuid p, l)
    else .error .outsideSpec := rfl

/-- An instruction of two bytes. -/
theorem body_of_ok {d : OpSize} {p : List Prefix} {l rest bs : List Byte} {i j : Instr}
    (h : (Except.ok (j, l) : Except DecodeError (Instr × List Byte)) = .ok (i, rest))
    (hj : j.prefixes = p ∧ j.operandsFit d = true ∧ encodeBody j = bs) : Body d p i (bs ++ l) rest := by
  cases h
  obtain ⟨hp, hfit, hcode⟩ := hj
  exact ⟨hp, hfit, hcode ▸ rfl⟩

theorem decodeTwoByte_ok {d : OpSize} {p : List Prefix} {l rest : List Byte} {i : Instr}
    (h : decodeTwoByte p (Prefix.addressSize d p) l = .ok (i, rest)) : Body d p i (0x0F :: l) rest := by
  cases l with
  | nil => cases h
  | cons b l =>
    rw [decodeTwoByte_cons] at h
    refine ite_cases h (fun hb h => hb ▸ decodeGroup00_ok h) fun h => ?_
    refine ite_cases h (fun hb h => hb ▸ decodeGroup01_ok h) fun h => ?_
    refine ite_cases h (fun hb h => hb ▸ body_of_ok h ⟨rfl, rfl, rfl⟩) fun h => ?_
    refine ite_cases h (fun hb h => hb ▸ body_of_takeSpecial h fun _ _ _ => ⟨rfl, rfl, rfl⟩) fun h => ?_
    refine ite_cases h (fun hb h => hb ▸ body_of_takeSpecial h fun _ _ _ => ⟨rfl, rfl, rfl⟩) fun h => ?_
    refine ite_cases h (fun hb h => hb ▸ body_of_takeSpecial h fun _ _ _ => ⟨rfl, rfl, rfl⟩) fun h => ?_
    refine ite_cases h (fun hb h => hb ▸ body_of_takeSpecial h fun _ _ _ => ⟨rfl, rfl, rfl⟩) fun h => ?_
    refine ite_cases h (fun hb h => hb ▸ body_of_takeSpecial h fun _ _ _ => ⟨rfl, rfl, rfl⟩) fun h => ?_
    refine ite_cases h (fun _ h => nomatch h) fun h => ?_
    refine ite_cases h (fun hb h => hb ▸ body_of_takeSpecial h fun _ _ _ => ⟨rfl, rfl, rfl⟩) fun h => ?_
    refine ite_cases h (fun _ h => nomatch h) fun h => ?_
    refine ite_cases h (fun hb h => hb ▸ body_of_ok h ⟨rfl, rfl, rfl⟩) fun h => ?_
    refine ite_cases h (fun hb h => hb ▸ body_of_ok h ⟨rfl, rfl, rfl⟩) fun h => ?_
    refine ite_cases h (fun hb h => hb ▸ body_of_ok h ⟨rfl, rfl, rfl⟩) fun h => ?_
    refine ite_cases h (fun hb h => hb ▸ body_of_ok h ⟨rfl, rfl, rfl⟩) fun h => ?_
    exact ite_cases h (fun hb h => hb ▸ body_of_ok h ⟨rfl, rfl, rfl⟩) fun h => nomatch h

theorem decodeBody_cons (p : List Prefix) (z a : OpSize) (b : Byte) (l : List Byte) : decodeBody p z a (b :: l) =
    if b = 0x0F then decodeTwoByte p a l
    else if b = 0x9A then takeFar z l >>= fun x => .ok (.callPtr p x.1, x.2)
    else if b = 0x9B then .ok (.wait p, l)
    else if b = 0xCC then .ok (.int3 p, l)
    else if b = 0xCF then .ok (.iret p, l)
    else if b = 0xFF then take8 l >>= fun x => if field x.1 3 3 = 3 then takeOperand (.callMem p) a x.1 x.2 else .error .outsideSpec
    else if field b 3 5 = 0x1B then take8 l >>= fun x => takeOperand (.esc p (field b 0 3) (field x.1 3 3)) a x.1 x.2
    else .error .outsideSpec := rfl

theorem escByte_eq {b : Byte} (h : field b 3 5 = 0x1B) : ((0x1B : BitVec 5) ++ field b 0 3 : Byte) = b := by
  revert b
  decide

theorem decodeBody_ok {d : OpSize} {p : List Prefix} {l rest : List Byte} {i : Instr}
    (h : decodeBody p (Prefix.operandSize d p) (Prefix.addressSize d p) l = .ok (i, rest)) : Body d p i l rest := by
  cases l with
  | nil => cases h
  | cons b l =>
    rw [decodeBody_cons] at h
    split_ifs at h with h0F h9A h9B hCC hCF hFF hesc
    · exact h0F ▸ decodeTwoByte_ok h
    · obtain ⟨⟨t, bs⟩, ht, h⟩ := except_bind_ok h
      obtain ⟨hfits, hl⟩ := takeFar_ok ht
      cases h
      exact ⟨rfl, hfits, by rw [h9A, hl]; rfl⟩
    · exact h9B ▸ body_of_ok h ⟨rfl, rfl, rfl⟩
    · exact hCC ▸ body_of_ok h ⟨rfl, rfl, rfl⟩
    · exact hCF ▸ body_of_ok h ⟨rfl, rfl, rfl⟩
    · obtain ⟨⟨m, bs⟩, hm, h⟩ := except_bind_ok h
      dsimp only at h
      split_ifs at h with hg
      rw [hFF, take8_ok hm]
      exact body_of_takeOperand (opcode := [0xFF]) h hg fun _ => ⟨rfl, rfl, rfl⟩
    · obtain ⟨⟨m, bs⟩, hm, h⟩ := except_bind_ok h
      rw [← escByte_eq hesc, take8_ok hm]
      exact body_of_takeOperand (opcode := [_]) h rfl fun _ => ⟨rfl, rfl, rfl⟩

/-- What decodes is a well-formed instruction, and the bytes are its encoding. -/
theorem decode_ok {d : OpSize} {bs rest : List Byte} {i : Instr} (h : decode d bs = .ok (i, rest)) :
    i.wellFormed d = true ∧ bs = encode i ++ rest := by
  unfold decode at h
  dsimp only at h
  split at h
  · next j tail hbody =>
    split at h
    · next hsize =>
      cases h
      obtain ⟨hp, hfits, hbytes⟩ := decodeBody_ok hbody
      refine ⟨by simp [Instr.wellFormed, hfits, hsize], ?_⟩
      unfold encode
      rw [hp, List.append_assoc, ← hbytes]
      exact splitPrefixes_eq bs
    · cases h
  · cases h

/-- The encoding has the length of the decoder's rule (30_encoding.md R209), of every constructor. -/
theorem encode_length (i : Instr) : (encode i).length = i.size := by
  cases i with
  | sgdt p o => exact Laws.EncodeSize.sgdt p o
  | sidt p o => exact Laws.EncodeSize.sidt p o
  | lgdt p o => exact Laws.EncodeSize.lgdt p o
  | lidt p o => exact Laws.EncodeSize.lidt p o
  | sldt p o => exact Laws.EncodeSize.sldt p o
  | str p o => exact Laws.EncodeSize.str p o
  | lldt p o => exact Laws.EncodeSize.lldt p o
  | ltr p o => exact Laws.EncodeSize.ltr p o
  | movFromCr p m n r => exact Laws.EncodeSize.movFromCr p m n r
  | movToCr p m n r => exact Laws.EncodeSize.movToCr p m n r
  | smsw p o => exact Laws.EncodeSize.smsw p o
  | lmsw p o => exact Laws.EncodeSize.lmsw p o
  | clts p => exact Laws.EncodeSize.clts p
  | movFromDr p m n r => exact Laws.EncodeSize.movFromDr p m n r
  | movToDr p m n r => exact Laws.EncodeSize.movToDr p m n r
  | movFromTr p m n r => exact Laws.EncodeSize.movFromTr p m n r
  | movToTr p m n r => exact Laws.EncodeSize.movToTr p m n r
  | int3 p => exact Laws.EncodeSize.int3 p
  | wrmsr p => exact Laws.EncodeSize.wrmsr p
  | rdtsc p => exact Laws.EncodeSize.rdtsc p
  | rdmsr p => exact Laws.EncodeSize.rdmsr p
  | rdpmc p => exact Laws.EncodeSize.rdpmc p
  | cpuid p => exact Laws.EncodeSize.cpuid p
  | callPtr p f => exact Laws.EncodeSize.callPtr p f
  | callMem p o => exact Laws.EncodeSize.callMem p o
  | iret p => exact Laws.EncodeSize.iret p
  | wait p => exact Laws.EncodeSize.wait p
  | esc p x g o => exact Laws.EncodeSize.esc p x g o

end Sys2Proof
end

section
/-! PROOFS. What a translation changes (20_memory.md R163, R167): the TLB, and the accessed and dirty bits of the page entries that
the walks for its addresses use. -/

namespace Sys2Proof.Machine

/-! ### Stores that mark page entries -/

/-- `c` is `b` with accessed or dirty bits set (20_memory.md R167). -/
def BitsSet (b c : Byte) : Prop := b ||| (c &&& 0x60) = c

theorem bitsSet_refl (b : Byte) : BitsSet b b := by
  unfold BitsSet
  revert b
  decide

theorem bitsSet_trans {b c d : Byte} (h1 : BitsSet b c) (h2 : BitsSet c d) : BitsSet b d := by
  unfold BitsSet at *
  have hmarks : d &&& 0x60 = (c &&& 0x60) ||| (d &&& 0x60) := by
    conv_lhs => rw [← h2, BitVec.and_or_distrib_right, BitVec.and_assoc, BitVec.and_self]
  rw [hmarks, ← BitVec.or_assoc, h1, h2]

/-- `t` is `s` but for the TLB, the pending debug conditions, the count of free values and accessed and dirty bits set in the bytes
at `pas`. -/
structure Marked (s t : State) (pas : List Word32) : Prop where
  rest : t = { s with tlb := t.tlb, mem := t.mem, pending := t.pending, draws := t.draws }
  wf : Memory.wf t.mem = true
  bytes : ∀ a, a ∉ pas → t.physByte a = s.physByte a
  bits : ∀ a, BitsSet (s.physByte a) (t.physByte a)

theorem Marked.refl {s : State} (h : Memory.wf s.mem = true) : Marked s s [] := ⟨rfl, h, fun _ _ => rfl, fun _ => bitsSet_refl _⟩

theorem Marked.mono {s t : State} {pas qas : List Word32} (h : Marked s t pas) (hsub : pas ⊆ qas) : Marked s t qas :=
  ⟨h.rest, h.wf, fun a ha => h.bytes a fun hin => ha (hsub hin), h.bits⟩

theorem Marked.trans {s t u : State} {pas qas : List Word32} (h1 : Marked s t pas) (h2 : Marked t u qas) :
    Marked s u (pas ++ qas) where
  rest := by
    have hrest : u = { ({ s with tlb := t.tlb, mem := t.mem, pending := t.pending, draws := t.draws } : State) with
        tlb := u.tlb, mem := u.mem, pending := u.pending, draws := u.draws } := by
      rw [← h1.rest]
      exact h2.rest
    exact hrest
  wf := h2.wf
  bytes a ha := by
    simp only [List.mem_append, not_or] at ha
    rw [h2.bytes a ha.2, h1.bytes a ha.1]
  bits a := bitsSet_trans (h1.bits a) (h2.bits a)

/-- Changes of the TLB and of the count of free values touch no byte. -/
theorem Marked.withTlb {s t : State} {pas : List Word32} (h : Marked s t pas) (l : List TlbEntry) (n : Nat) :
    Marked s { t with tlb := l, draws := n } pas where
  rest := by
    rw [h.rest]
  wf := h.wf
  bytes := h.bytes
  bits := h.bits

/-- A byte stored where it stands already. -/
theorem physByte_storeByte_id {s : State} (h : Memory.wf s.mem = true) (pa a : Word32) :
    (s.storeByte pa (s.physByte pa)).physByte a = s.physByte a := by
  by_cases ha : a = pa
  · subst ha
    by_cases hram : s.part.kindAt a = .ram
    · exact physByte_storeByte _ hram h
    · rw [storeByte_fixed _ hram]
  · exact physByte_storeByte_other _ ha h

theorem storeBytes_cons (s : State) (pa : Word32) (pas : List Word32) (v : Byte) (vs : List Byte) :
    s.storeBytes (pa :: pas) (v :: vs) = (s.storeByte pa v).storeBytes pas vs := rfl

theorem physByte_storeBytes_id {s : State} (h : Memory.wf s.mem = true) (pas : List Word32) (a : Word32) :
    (s.storeBytes pas (pas.map s.physByte)).physByte a = s.physByte a := by
  induction pas generalizing s with
  | nil => rfl
  | cons pa pas ih =>
    have hsame : pas.map s.physByte = pas.map (s.storeByte pa (s.physByte pa)).physByte :=
      List.map_congr_left fun b _ => (physByte_storeByte_id h pa b).symm
    rw [List.map_cons, storeBytes_cons, hsame, ih (storeByte_wf _ _ h), physByte_storeByte_id h]

theorem append_or_append {m n : Nat} (a c : BitVec m) (b d : BitVec n) : (a ++ b) ||| (c ++ d) = (a ||| c) ++ (b ||| d) := by
  refine BitVec.eq_of_getLsbD_eq fun j _ => ?_
  simp only [BitVec.getLsbD_or, BitVec.getLsbD_append]
  split <;> rfl

/-- The accessed and dirty bits are in the first byte of an entry (20_memory.md R167). -/
theorem markUsed_word32 (dirty : Bool) (b0 b1 b2 b3 : Byte) :
    markUsed dirty (word32 b0 b1 b2 b3) = word32 (b0 ||| if dirty then 0x60 else 0x20) b1 b2 b3 := by
  have hlow : ∀ (b m : Byte), word32 b b1 b2 b3 ||| ((0 : BitVec 24) ++ m) = word32 (b ||| m) b1 b2 b3 := fun b m =>
    (append_or_append (b3 ++ b2 ++ b1) 0 b m).trans (congrArg (· ++ (b ||| m)) (BitVec.or_zero (x := b3 ++ b2 ++ b1)))
  cases dirty with
  | true => exact (congrArg (· ||| _) (hlow b0 0x40)).trans ((hlow _ 0x20).trans (by rw [BitVec.or_assoc]; rfl))
  | false => exact hlow b0 0x20

theorem addrsFrom_four (a : Word32) : addrsFrom a 4 = [a, a + 1, a + 2, a + 3] := by
  simp [addrsFrom, BitVec.add_assoc]

theorem add_ne_self (a : Word32) {k : Word32} (hk : k ≠ 0) : a + k ≠ a := by
  bv_omega

/-- A double word of which only the first byte is new. -/
theorem physByte_store32 {s : State} (h : Memory.wf s.mem = true) (pa : Word32) (b : Byte) (a : Word32) :
    (s.store32 pa (word32 b (s.physByte (pa + 1)) (s.physByte (pa + 2)) (s.physByte (pa + 3)))).physByte a
      = (s.storeByte pa b).physByte a := by
  have hother : ∀ k : Word32, k ≠ 0 → s.physByte (pa + k) = (s.storeByte pa b).physByte (pa + k) := fun k hk =>
    (physByte_storeByte_other b (add_ne_self pa hk) h).symm
  unfold State.store32
  rw [bytes32_word32, addrsFrom_four, storeBytes_cons, hother 1 (by decide), hother 2 (by decide), hother 3 (by decide)]
  have hid := physByte_storeBytes_id (storeByte_wf pa b h) [pa + 1, pa + 2, pa + 3] a
  simpa only [List.map_cons, List.map_nil] using hid

/-- A walk stores an entry with accessed and dirty bits set (20_memory.md R167). -/
theorem marked_store32 {s : State} (h : Memory.wf s.mem = true) (dirty : Bool) (pa : Word32) :
    Marked s (s.store32 pa (markUsed dirty (s.phys32 pa))) [pa] := by
  have hmark : ∀ b : Byte, BitsSet b (b ||| if dirty then 0x60 else 0x20) := by
    unfold BitsSet
    cases dirty <;> decide
  have hbytes : ∀ a, (s.store32 pa (markUsed dirty (s.phys32 pa))).physByte a
      = (s.storeByte pa (s.physByte pa ||| if dirty then 0x60 else 0x20)).physByte a := fun a => by
    unfold State.phys32
    rw [markUsed_word32, physByte_store32 h]
  refine ⟨by rw [State.store32, storeBytes_eq], storeBytes_wf _ _ h, fun a ha => ?_, fun a => ?_⟩
  · rw [hbytes, physByte_storeByte_other _ (by simpa using ha) h]
  · rw [hbytes]
    by_cases ha : a = pa
    · subst ha
      by_cases hram : s.part.kindAt a = .ram
      · rw [physByte_storeByte _ hram h]
        exact hmark _
      · rw [storeByte_fixed _ hram]
        exact bitsSet_refl _
    · rw [physByte_storeByte_other _ ha h]
      exact bitsSet_refl _

end Sys2Proof.Machine
end

section
/-! PROOFS. A walk marks the entries that it uses, and marked entries lead to the same pages (20_memory.md R163, R167). -/

namespace Sys2Proof.Machine

/-- Page entries stand at multiples of 4 (20_memory.md R163). -/
def Aligned4 (a : Word32) : Prop := a.setWidth 2 = (0 : BitVec 2)

theorem aligned4_entry (table index : Word32) : Aligned4 ((table &&& 0xFFFFF000) + 4 * index) := by
  unfold Aligned4
  rw [BitVec.setWidth_add _ _ (by decide), BitVec.setWidth_mul _ _ (by decide), BitVec.setWidth_and]
  simp

theorem walkEntries_aligned {s : State} {lin a : Word32} (h : a ∈ s.walkEntries lin) : Aligned4 a := by
  unfold State.walkEntries at h
  split at h
  · rw [List.mem_singleton] at h
    exact h ▸ aligned4_entry _ _
  · simp only [List.mem_cons, List.not_mem_nil, or_false] at h
    obtain rfl | rfl := h
    · exact aligned4_entry _ _
    · exact aligned4_entry _ _

theorem entriesOf_aligned {s : State} {lins : List Word32} {a : Word32} (h : a ∈ s.entriesOf lins) : Aligned4 a := by
  unfold State.entriesOf at h
  split at h
  · obtain ⟨lin, -, ha⟩ := List.mem_flatMap.mp h
    exact walkEntries_aligned ha
  · simp at h

theorem not_aligned4_add {a k : Word32} (h : Aligned4 a) (hk : ¬ Aligned4 k) : ¬ Aligned4 (a + k) := by
  unfold Aligned4 at *
  rw [BitVec.setWidth_add _ _ (by decide), h]
  exact (BitVec.zero_add (BitVec.setWidth 2 k)).symm ▸ hk

theorem bitsSet_bit {b c : Byte} (h : BitsSet b c) {n : Nat} (hn : bit (0x60 : Byte) n = false) : bit c n = bit b n := by
  unfold BitsSet at h
  unfold bit at *
  rw [← h, BitVec.getLsbD_or, BitVec.getLsbD_and, hn, Bool.and_false, Bool.or_false]

theorem word32_page (b0 c0 b1 b2 b3 : Byte) : word32 b0 b1 b2 b3 &&& 0xFFFFF000 = word32 c0 b1 b2 b3 &&& 0xFFFFF000 := by
  have hpage : ∀ b : Byte, word32 b b1 b2 b3 &&& 0xFFFFF000 = (((b3 ++ b2 ++ b1) &&& (0xFFFFF0 : BitVec 24)) ++ (0 : Byte)) := fun b =>
    (append_and_append (b3 ++ b2 ++ b1) 0xFFFFF0 b 0).trans (congrArg (_ ++ ·) BitVec.and_zero)
  rw [hpage, hpage]

theorem bit_word32_low (b0 b1 b2 b3 : Byte) {n : Nat} (hn : n < 8) : bit (word32 b0 b1 b2 b3) n = bit b0 n := by
  unfold bit word32
  rw [BitVec.getLsbD_append]
  simp [hn]

section
variable {s t : State} {pas : List Word32} (h : Marked s t pas) (ha : ∀ a ∈ pas, Aligned4 a)
include h ha

/-- An entry that walks have marked differs in its first byte only. -/
theorem Marked.phys32 {a : Word32} (hal : Aligned4 a) :
    t.phys32 a = word32 (t.physByte a) (s.physByte (a + 1)) (s.physByte (a + 2)) (s.physByte (a + 3)) := by
  have hsame : ∀ k : Word32, ¬ Aligned4 k → t.physByte (a + k) = s.physByte (a + k) := fun k hk =>
    h.bytes _ fun hin => not_aligned4_add hal hk (ha _ hin)
  unfold State.phys32
  rw [hsame 1 (by unfold Aligned4; decide), hsame 2 (by unfold Aligned4; decide), hsame 3 (by unfold Aligned4; decide)]

theorem Marked.phys32_page {a : Word32} (hal : Aligned4 a) : t.phys32 a &&& 0xFFFFF000 = s.phys32 a &&& 0xFFFFF000 := by
  rw [h.phys32 ha hal]
  exact word32_page ..

theorem Marked.phys32_bit {a : Word32} (hal : Aligned4 a) : bit (t.phys32 a) 7 = bit (s.phys32 a) 7 := by
  rw [h.phys32 ha hal, State.phys32, bit_word32_low _ _ _ _ (by decide), bit_word32_low _ _ _ _ (by decide)]
  exact bitsSet_bit (h.bits a) (by decide)

theorem Marked.walkEntries (lin : Word32) : t.walkEntries lin = s.walkEntries lin := by
  have hcr3 : t.cr3 = s.cr3 := by rw [h.rest]
  have hpse : t.pse = s.pse := by rw [h.rest]; rfl
  have hpde : t.pdeAddr lin = s.pdeAddr lin := by rw [State.pdeAddr, State.pdeAddr, hcr3]
  have hal : Aligned4 (s.pdeAddr lin) := aligned4_entry _ _
  unfold State.walkEntries State.maps4M pteAddr
  rw [hpde, hpse, h.phys32_bit ha hal, h.phys32_page ha hal]

theorem Marked.entriesOf (lins : List Word32) : t.entriesOf lins = s.entriesOf lins := by
  have hpaging : t.paging = s.paging := by rw [h.rest]; rfl
  unfold State.entriesOf
  rw [hpaging, funext (h.walkEntries ha)]

end

/-! ### What a translation marks -/

theorem Marked.store32 {s t : State} {pas : List Word32} (h : Marked s t pas) (dirty : Bool) (pa : Word32) :
    Marked s (t.store32 pa (markUsed dirty (t.phys32 pa))) (pas ++ [pa]) := h.trans (marked_store32 h.wf dirty pa)

theorem marked_walk {s t : State} {acc : Access} {lin : Word32} {e : TlbEntry} (hwf : Memory.wf s.mem = true)
    (h : walk acc lin s = .ok (e, t)) : Marked s t (s.walkEntries lin) := by
  unfold walk at h
  obtain ⟨s0, s1, h1, h⟩ := exec_bind_ok h
  cases h1
  obtain ⟨_, s2, h2, h⟩ := exec_bind_ok h
  obtain ⟨-, hs2⟩ := refuseIf_ok h2
  rw [hs2] at h
  obtain ⟨_, s3, h3, h⟩ := exec_bind_ok h
  obtain ⟨-, hs3⟩ := raiseIf_ok h3
  rw [hs3] at h
  cases h4m : s.maps4M (s.phys32 (s.pdeAddr lin)) with
  | true =>
    have hentries : s.walkEntries lin = [s.pdeAddr lin] := by rw [State.walkEntries, h4m]; rfl
    rw [hentries]
    simp only [h4m, if_true] at h
    obtain ⟨_, s4, h4, h⟩ := exec_bind_ok h
    obtain ⟨-, hs4⟩ := raiseIf_ok h4
    rw [hs4] at h
    obtain ⟨_, s5, h5, h⟩ := exec_bind_ok h
    obtain ⟨-, hs5⟩ := raiseIf_ok h5
    rw [hs5] at h
    obtain ⟨_, s6, h6, h⟩ := exec_bind_ok h
    cases h6
    cases h
    exact marked_store32 hwf _ _
  | false =>
    have hentries : s.walkEntries lin = [s.pdeAddr lin] ++ [pteAddr (s.phys32 (s.pdeAddr lin)) lin] := by
      rw [State.walkEntries, h4m]; rfl
    rw [hentries]
    simp only [h4m, Bool.false_eq_true, if_false] at h
    obtain ⟨_, s4, h4, h⟩ := exec_bind_ok h
    obtain ⟨-, hs4⟩ := refuseIf_ok h4
    rw [hs4] at h
    obtain ⟨_, s5, h5, h⟩ := exec_bind_ok h
    obtain ⟨-, hs5⟩ := raiseIf_ok h5
    rw [hs5] at h
    obtain ⟨_, s6, h6, h⟩ := exec_bind_ok h
    obtain ⟨-, hs6⟩ := raiseIf_ok h6
    rw [hs6] at h
    obtain ⟨_, s7, h7, h⟩ := exec_bind_ok h
    cases h7
    cases h
    exact (marked_store32 hwf _ _).store32 _ _

theorem entriesOf_singleton {s : State} (h : s.paging = true) (lin : Word32) : s.entriesOf [lin] = s.walkEntries lin := by
  rw [State.entriesOf, if_pos h, List.flatMap_singleton]

theorem entriesOf_cons (s : State) (lin : Word32) (lins : List Word32) :
    s.entriesOf (lin :: lins) = s.entriesOf [lin] ++ s.entriesOf lins := by
  unfold State.entriesOf
  split
  · rw [List.flatMap_singleton, List.flatMap_cons]
  · rfl

/-- A fill changes the TLB and draws a free value (20_memory.md R169). -/
theorem marked_fillTlb {s t u : State} {pas : List Word32} {page : BitVec 20} {e : TlbEntry} {x : Unit} (h : Marked s t pas)
    (hfill : fillTlb page e t = .ok (x, u)) : Marked s u pas := by
  unfold fillTlb at hfill
  obtain ⟨k, t1, h1, hfill⟩ := exec_bind_ok hfill
  cases h1
  obtain ⟨_, t2, h2, hfill⟩ := exec_bind_ok hfill
  cases h2
  cases hblock : Config.tlbFill t.draws with
  | some b =>
    rw [hblock] at hfill
    cases hfill
    exact h.withTlb _ _
  | none =>
    rw [hblock] at hfill
    cases hfill
    exact h.withTlb _ _

theorem marked_translate {s t : State} {acc : Access} {lin pa : Word32} (hwf : Memory.wf s.mem = true)
    (h : translate acc lin s = .ok (pa, t)) : Marked s t (s.entriesOf [lin]) := by
  have hnone : Marked s s (s.entriesOf [lin]) := (Marked.refl hwf).mono (List.nil_subset _)
  unfold translate at h
  obtain ⟨_, s1, h1, h⟩ := exec_bind_ok h
  cases h1
  cases hpaging : s.paging with
  | false =>
    simp only [hpaging, Bool.not_false, if_true] at h
    cases h
    exact hnone
  | true =>
    simp only [hpaging, Bool.not_true, Bool.false_eq_true, if_false] at h
    rw [entriesOf_singleton hpaging] at hnone ⊢
    cases hhits : s.tlbHits (field lin 12 20) with
    | nil =>
      rw [hhits] at h
      obtain ⟨e, s2, hwalk, h⟩ := exec_bind_ok h
      obtain ⟨_, s3, hfill, h⟩ := exec_bind_ok h
      cases h
      exact marked_fillTlb (marked_walk hwf hwalk) hfill
    | cons b bs =>
      cases bs with
      | cons c bs =>
        rw [hhits] at h
        cases h
      | nil =>
        rw [hhits] at h
        obtain ⟨_, s2, h2, h⟩ := exec_bind_ok h
        obtain ⟨-, hs2⟩ := raiseIf_ok h2
        rw [hs2] at h
        by_cases hdirty : (acc.write && !(s.tlbEntry b (field lin 12 20)).d) = true
        · simp only [hdirty, if_true] at h
          obtain ⟨e, s3, hwalk, h⟩ := exec_bind_ok h
          obtain ⟨_, s4, hset, h⟩ := exec_bind_ok h
          cases hset
          cases h
          exact (marked_walk hwf hwalk).withTlb _ _
        · simp only [hdirty] at h
          cases h
          exact hnone

theorem marked_nextByte {s t : State} {acc : Access} {prev : Option Word32} {lin pa : Word32} (hwf : Memory.wf s.mem = true)
    (h : nextByte acc prev lin s = .ok (pa, t)) : Marked s t (s.entriesOf [lin]) := by
  cases prev with
  | none => exact marked_translate hwf h
  | some p =>
    unfold nextByte at h
    dsimp only at h
    split at h
    · exact marked_translate hwf h
    · cases h
      exact (Marked.refl hwf).mono (List.nil_subset _)

theorem marked_translateFrom {acc : Access} {n : Nat} {s t : State} {prev : Option Word32} {lin : Word32} {pas : List Word32}
    (hwf : Memory.wf s.mem = true) (h : translateFrom acc n prev lin s = .ok (pas, t)) :
    Marked s t (s.entriesOf (addrsFrom lin n)) ∧ pas.length = n := by
  induction n generalizing s prev lin pas with
  | zero =>
    cases h
    exact ⟨(Marked.refl hwf).mono (List.nil_subset _), rfl⟩
  | succ n ih =>
    obtain ⟨pa, u, hbyte, h⟩ := exec_bind_ok h
    obtain ⟨qas, v, hfrom, h⟩ := exec_bind_ok h
    cases h
    have hfirst := marked_nextByte hwf hbyte
    obtain ⟨hlater, hlen⟩ := ih hfirst.wf hfrom
    rw [hfirst.entriesOf fun a => entriesOf_aligned] at hlater
    rw [addrsFrom, entriesOf_cons]
    exact ⟨hfirst.trans hlater, congrArg Nat.succ hlen⟩

theorem Marked.accessed {s t : State} {lins : List Word32} (h : Marked s t (s.entriesOf lins)) : Accessed s t lins :=
  ⟨h.rest, h.bytes, h.bits⟩

/-- An access to a range of bytes before anything is stored (20_memory.md R160, R167). -/
theorem accessed_translateRange {acc : Access} {n : Nat} {s t : State} {lin : Word32} {pas : List Word32}
    (hwf : Memory.wf s.mem = true) (h : translateRange acc lin n s = .ok (pas, t)) :
    Accessed s t (addrsFrom lin n) ∧ pas.length = n := by
  unfold translateRange at h
  obtain ⟨qas, u, hfrom, h⟩ := exec_bind_ok h
  obtain ⟨_, v, hget, h⟩ := exec_bind_ok h
  cases hget
  obtain ⟨_, w, hdevice, h⟩ := exec_bind_ok h
  obtain ⟨-, hw⟩ := refuseIf_ok hdevice
  cases h
  obtain ⟨hmarked, hlen⟩ := marked_translateFrom hwf hfrom
  rw [hw]
  exact ⟨hmarked.accessed, hlen⟩

end Sys2Proof.Machine
end

section
/-! PROOFS. The fetch (10_state.md R22; 20_memory.md R179; 60_exceptions.md R353 items 6 to 8). -/

namespace Sys2Proof.Machine

theorem addrsFrom_take (a : Word32) {m n : Nat} (h : m ≤ n) : (addrsFrom a n).take m = addrsFrom a m := by
  induction m generalizing a n with
  | zero => rfl
  | succ m ih =>
    cases n with
    | zero => omega
    | succ n => rw [addrsFrom, addrsFrom, List.take_succ_cons, ih _ (by omega)]

theorem bytesAt_addrsFrom_take (s : State) (a : Word32) {m n : Nat} (h : m ≤ n) :
    s.bytesAt (addrsFrom a m) = (s.bytesAt (addrsFrom a n)).take m := by
  rw [← addrsFrom_take a h]
  exact List.map_take

theorem deviceAt_addrsFrom_mono {s : State} {a : Word32} {m n : Nat} (h : m ≤ n) (hd : s.deviceAt (addrsFrom a n) = false) :
    s.deviceAt (addrsFrom a m) = false := by
  rw [← addrsFrom_take a h]
  simp only [State.deviceAt, List.any_eq_false] at hd ⊢
  exact fun b hb => hd b (List.mem_of_mem_take hb)

theorem inLimit_mono {c : SegCache} {off : Word32} {m n : Nat} (h : m ≤ n) (hl : c.inLimit off n = true) :
    c.inLimit off m = true := by
  have hlast : off.toNat + m - 1 ≤ off.toNat + n - 1 := by omega
  unfold SegCache.inLimit at hl ⊢
  cases hdown : c.expandDown with
  | true =>
    simp only [hdown, if_true, Bool.and_eq_true, decide_eq_true_eq] at hl ⊢
    exact ⟨hl.1, hlast.trans hl.2⟩
  | false =>
    simp only [hdown, Bool.false_eq_true, if_false, decide_eq_true_eq] at hl ⊢
    exact hlast.trans hl

theorem codeInLimit_mono {s : State} {m n : Nat} (h : m ≤ n) (hl : s.codeInLimit n = true) : s.codeInLimit m = true := by
  unfold State.codeInLimit at hl ⊢
  cases hprot : s.prot with
  | true =>
    simp only [hprot, if_true] at hl ⊢
    exact inLimit_mono h hl
  | false =>
    simp only [hprot, Bool.false_eq_true, if_false, decide_eq_true_eq] at hl ⊢
    omega

theorem size_pos (i : Instr) : 0 < i.size := by
  obtain ⟨b, bs, hbody, -⟩ := encodeBody_eq_cons i
  rw [← encode_length, encode, hbody]
  simp

theorem fetchBytes_flat {s : State} (h : s.paging = false) {n : Nat} (hl : s.codeInLimit n = true)
    (hd : s.deviceAt (addrsFrom s.fetchAddr n) = false) : fetchBytes n s = .ok (s.bytesAt (addrsFrom s.fetchAddr n), s) := by
  unfold fetchBytes
  rw [exec_bind_of_ok (exec_get s), hl, Bool.not_true, exec_bind_of_ok (exec_raiseIf_false _ s),
    exec_bind_of_ok (translateRange_flat h _ hd)]
  rfl

theorem fetchBytes_ok {n : Nat} {s t : State} {bs : List Byte} (h : fetchBytes n s = .ok (bs, t)) :
    s.codeInLimit n = true ∧ ∃ pas, translateRange (s.access false) s.fetchAddr n s = .ok (pas, t) ∧ bs = t.bytesAt pas := by
  unfold fetchBytes at h
  obtain ⟨_, u, hget, h⟩ := exec_bind_ok h
  cases hget
  obtain ⟨_, v, hlimit, h⟩ := exec_bind_ok h
  obtain ⟨hlimit, hv⟩ := raiseIf_ok hlimit
  rw [hv] at h
  obtain ⟨pas, w, hrange, h⟩ := exec_bind_ok h
  obtain ⟨_, x, hget, h⟩ := exec_bind_ok h
  cases hget
  cases h
  exact ⟨by simpa using hlimit, pas, hrange, rfl⟩

/-! ### One round of the fetch -/

section
variable {more n : Nat} {s t : State} {bs : List Byte} (hb : fetchBytes n s = .ok (bs, t))
include hb

theorem fetchFrom_of_ok {i : Instr} {rest : List Byte} (hd : decode s.codeSize bs = .ok (i, rest)) :
    fetchFrom more n s = .ok (i, t) := by
  cases more <;> simp only [fetchFrom, hb, hd]

theorem fetchFrom_of_truncated (hd : decode s.codeSize bs = .error .truncated) :
    fetchFrom (more + 1) n s = fetchFrom more (n + 1) s := by
  simp only [fetchFrom, hb, hd]

theorem fetchFrom_of_tooLong {i : Instr} (hd : decode s.codeSize bs = .error (.tooLong i)) :
    fetchFrom more n s = .error (.exc (s.overlong i)) := by
  cases more <;> simp only [fetchFrom, hb, hd, State.decodeStop]

end

/-! ### The fetch of an instruction that stands in memory, with paging off -/

/-- The instruction stands at the code address, inside the code segment and in no device, and there is no paging. -/
structure Stands (s : State) (i : Instr) : Prop where
  flat : s.paging = false
  fits : i.operandsFit s.codeSize = true
  limit : s.codeInLimit i.size = true
  noDevice : s.deviceAt (addrsFrom s.fetchAddr i.size) = false
  bytes : s.bytesAt (addrsFrom s.fetchAddr i.size) = encode i

section
variable {s : State} {i : Instr} (h : Stands s i)
include h

theorem Stands.fetchBytes {n : Nat} (hn : n ≤ i.size) : fetchBytes n s = .ok ((encode i).take n, s) := by
  rw [fetchBytes_flat h.flat (codeInLimit_mono hn h.limit) (deviceAt_addrsFrom_mono hn h.noDevice),
    bytesAt_addrsFrom_take s _ hn, h.bytes]

theorem Stands.fetchBytes_all : Machine.fetchBytes i.size s = .ok (encode i, s) := by
  rw [h.fetchBytes le_rfl, List.take_of_length_le (encode_length i).le]

/-- The fetch goes on until the whole instruction is read. -/
theorem Stands.fetchFrom (more k n : Nat) (hk : n + k = i.size) : fetchFrom (more + k) n s = fetchFrom more i.size s := by
  induction k generalizing n with
  | zero => rw [← hk]; rfl
  | succ k ih =>
    have hshort : n < (encode i).length := by rw [encode_length]; omega
    rw [← Nat.add_assoc, fetchFrom_of_truncated (h.fetchBytes (by omega)) (decode_encode_take h.fits hshort), ih (n + 1) (by omega)]

theorem Stands.fetchInstr : ∃ more, fetchInstr s = Machine.fetchFrom more i.size s := by
  have hle : i.size - 1 ≤ 0x100000000 := by
    have := codeInLimit_le h.limit
    omega
  obtain ⟨more, hmore⟩ := Nat.exists_eq_add_of_le' hle
  refine ⟨more, ?_⟩
  unfold Machine.fetchInstr
  rw [hmore]
  exact h.fetchFrom more (i.size - 1) 1 (by have := size_pos i; omega)

theorem Stands.decode : decode s.codeSize (encode i) = if i.size ≤ 15 then .ok (i, []) else .error (.tooLong i) := by
  have hdecode := decode_encode h.fits []
  rwa [List.append_nil] at hdecode

theorem Stands.fetchInstr_ok (hsize : i.size ≤ 15) : Machine.fetchInstr s = .ok (i, s) := by
  obtain ⟨more, hfetch⟩ := h.fetchInstr
  exact hfetch.trans (fetchFrom_of_ok h.fetchBytes_all (h.decode.trans (if_pos hsize)))

theorem Stands.fetchInstr_tooLong (hsize : ¬ i.size ≤ 15) : Machine.fetchInstr s = .error (.exc (s.overlong i)) := by
  obtain ⟨more, hfetch⟩ := h.fetchInstr
  exact hfetch.trans (fetchFrom_of_tooLong h.fetchBytes_all (h.decode.trans (if_neg hsize)))

end

theorem overlong_eq (s : State) (i : Instr) : s.overlong i = if .lock ∈ i.prefixes ∨ s.invalidForm i = true then .ud
    else if s.unavailable i = true then .nm else .gp 0 := by
  unfold State.overlong
  simp only [Bool.or_eq_true, List.contains_iff_mem]

/-- What a fetch that answers has read, with paging on as with paging off. -/
theorem fetchInstr_ok {s t : State} {i : Instr} (hwf : Memory.wf s.mem = true) (h : fetchInstr s = .ok (i, t)) :
    i.wellFormed s.codeSize = true ∧ s.codeInLimit i.size = true
      ∧ ∃ (n : Nat) (pas : List Word32) (rest : List Byte), translateRange (s.access false) s.fetchAddr n s = .ok (pas, t)
        ∧ t.bytesAt pas = encode i ++ rest ∧ Accessed s t (addrsFrom s.fetchAddr n) := by
  obtain ⟨n, bs, rest, hbytes, hdecode⟩ := fetchFrom_ok h
  obtain ⟨hlimit, pas, hrange, hbs⟩ := fetchBytes_ok hbytes
  obtain ⟨hwell, henc⟩ := decode_ok hdecode
  obtain ⟨haccessed, hlen⟩ := accessed_translateRange hwf hrange
  have hread : t.bytesAt pas = encode i ++ rest := hbs.symm.trans henc
  have hsize : i.size ≤ n := by
    have hcount : (t.bytesAt pas).length = n := List.length_map _ |>.trans hlen
    rw [hread, List.length_append, encode_length] at hcount
    omega
  exact ⟨hwell, codeInLimit_mono hsize hlimit, n, pas, rest, hrange, hread, haccessed⟩

/-- Settles O7: the bytes of an instruction that stands in memory decode to it when all are read and to nothing sooner
(`Stands.fetchFrom`); a paged fetch changes what `accessed_translateRange` says, since marked entries lead to the same pages. -/
theorem fetchReadsInstruction : Obligations.FetchReadsInstruction := by
  refine ⟨fun s i hflat hwell hlimit hdevice hbytes => ?_, fun s t i hwf h => fetchInstr_ok hwf h,
    fun s i hflat hfits hlong hlimit hdevice hbytes => ?_⟩
  · obtain ⟨hfits, hsize⟩ : i.operandsFit s.codeSize = true ∧ i.size ≤ 15 := by
      simpa [Instr.wellFormed] using hwell
    exact Stands.fetchInstr_ok ⟨hflat, hfits, hlimit, hdevice, hbytes⟩ hsize
  · rw [← overlong_eq]
    exact Stands.fetchInstr_tooLong ⟨hflat, hfits, hlimit, hdevice, hbytes⟩ (by omega)

end Sys2Proof.Machine
end

section
/-! PROOFS. Operands in memory: an access leaves the registers as they are, and the alignment check comes after it
(20_memory.md R138). -/

namespace Sys2Proof.Machine

/-! ### What an access leaves -/

/-- `t` is `s` but for the TLB, memory, the pending debug conditions and the count of free values. -/
def RegistersKept (s t : State) : Prop := t = { s with tlb := t.tlb, mem := t.mem, pending := t.pending, draws := t.draws }

theorem registersKept_frame : IsFrame RegistersKept where
  refl _ := rfl
  trans s t u h1 h2 := by
    unfold RegistersKept at *
    rw [h2, h1]

/-- An access writes none of the registers (20_memory.md R160). -/
theorem registersKept_operandClosed : OperandClosed RegistersKept where
  frame := registersKept_frame
  store s pas vs := by
    rw [storeBytes_eq]
    rfl
  tlb _ _ _ := rfl
  draws _ _ := rfl
  pending _ _ := rfl

theorem RegistersKept.misaligned {s t : State} (h : RegistersKept s t) (r : SegReg) (off : Word32) (n : Nat) :
    t.misaligned (t.linear r off) n = s.misaligned (s.linear r off) n := by
  unfold RegistersKept at h
  rw [h]
  rfl

/-! ### The alignment check -/

theorem checkAlignment_eq (s : State) (r : SegReg) (off : Word32) (n : Nat) :
    checkAlignment r off n s = if s.misaligned (s.linear r off) n then .error (.exc .ac) else .ok ((), s) := by
  unfold checkAlignment
  rw [exec_bind_of_ok (exec_get s), exec_raiseIf]

/-- The check after an access, in terms of the state before it (60 R327). -/
theorem checkAlignment_of_operandBytes {r : SegReg} {w : Bool} {off : Word32} {n : Nat} {s t : State} {pas : List Word32}
    (h : operandBytes r w off n s = .ok (pas, t)) :
    checkAlignment r off n t = if s.misaligned (s.linear r off) n then .error (.exc .ac) else .ok ((), t) := by
  have hkept : RegistersKept s t := keeps_operandBytes registersKept_operandClosed r w off n s pas t h
  rw [checkAlignment_eq, hkept.misaligned]

theorem lmemRead_of_operandBytes {r : SegReg} {off : Word32} {n : Nat} {s t : State} {pas : List Word32}
    (h : operandBytes r false off n s = .ok (pas, t)) :
    lmemRead r off n s = if s.misaligned (s.linear r off) n then .error (.exc .ac) else .ok (littleEndian (t.bytesAt pas), t) := by
  unfold lmemRead
  rw [exec_bind_of_ok h, exec_bind, checkAlignment_of_operandBytes h]
  cases s.misaligned (s.linear r off) n <;> rfl

theorem lmemWrite_of_operandBytes {r : SegReg} {off : Word32} {n : Nat} {s t : State} {pas : List Word32} (v : Nat)
    (h : operandBytes r true off n s = .ok (pas, t)) :
    lmemWrite r off n v s
      = if s.misaligned (s.linear r off) n then .error (.exc .ac) else .ok ((), t.storeBytes pas (toBytes n v)) := by
  unfold lmemWrite
  rw [exec_bind_of_ok h, exec_bind, checkAlignment_of_operandBytes h]
  cases s.misaligned (s.linear r off) n <;> rfl

/-- Words and double words under the rule of R138 (10_state.md R32, R65). -/
theorem misaligned_iff {s : State} {n : Nat} (hn : n = 2 ∨ n = 4) (hrule : s.part.acRule = .natural) (lin : Word32) :
    s.misaligned lin n = true ↔
      bit s.cr0 18 = true ∧ bit s.eflags 18 = true ∧ s.pe = true ∧ s.cpl = 3 ∧ lin.toNat % n ≠ 0 := by
  have halign : alignmentOf n = n := if_neg (by omega)
  simp [State.misaligned, State.am, State.ac, hrule, halign, and_assoc]

/-- Settles O21: the check reads registers only, which an access keeps (`checkAlignment_of_operandBytes`). -/
theorem alignmentChecked : Obligations.AlignmentChecked := by
  intro r off n v s t pas hn hrule bad
  have hbad : s.misaligned (s.linear r off) n = true ↔ bad := misaligned_iff hn hrule _
  refine ⟨fun h => ?_, fun h => ?_⟩
  · rw [lmemRead_of_operandBytes h]
    exact ⟨fun hb => if_pos (hbad.mpr hb), fun hb => if_neg (hb ∘ hbad.mp)⟩
  · rw [lmemWrite_of_operandBytes v h]
    exact ⟨fun hb => if_pos (hbad.mpr hb), fun hb => if_neg (hb ∘ hbad.mp)⟩

end Sys2Proof.Machine
end

section
/-! PROOFS. Descriptors (20_memory.md R149 to R151, R178): where a selector finds one, the eight bytes as a number, the accessed
bit. -/

namespace Sys2Proof.Machine

/-! ### Selectors -/

/-- The index of a selector counts descriptors of eight bytes (20_memory.md R150). -/
theorem selector_offset_toNat (sel : Word16) : (sel &&& 0xFFF8).toNat = 8 * (selIndex sel).toNat := by
  have hsplit : field sel 3 13 ++ field sel 0 3 = sel := (field_append_field sel 0 13 3).trans (field_self sel)
  have hand : sel &&& 0xFFF8 = field sel 3 13 ++ (0 : BitVec 3) := by
    conv_lhs => rw [← hsplit]
    refine (append_and_append _ (BitVec.allOnes 13) _ (0 : BitVec 3)).trans ?_
    rw [BitVec.and_allOnes]
    exact congrArg (_ ++ ·) BitVec.and_zero
  rw [hand, BitVec.toNat_append, selIndex, Nat.shiftLeft_eq]
  simp [Nat.mul_comm]

theorem descriptorAddr_eq (s : State) (sel : Word16) : s.descriptorAddr sel
    = (if selTi sel then s.ldtr.cache.base else s.gdtr.base) + BitVec.ofNat 32 (8 * (selIndex sel).toNat) := by
  rw [← selector_offset_toNat, BitVec.ofNat_toNat]
  rfl

theorem outsideTable_gdt_iff {sel : Word16} (h : selTi sel = false) (s : State) :
    s.outsideTable sel ↔ s.gdtr.limit.toNat < 8 * (selIndex sel).toNat + 7 := by
  have hbit : ¬ bit sel 2 = true := ne_of_eq_of_ne h (by decide)
  rw [State.outsideTable, if_neg hbit, selIndex]

theorem outsideTable_ldt_iff {sel : Word16} (h : selTi sel = true) (s : State) :
    s.outsideTable sel ↔ s.ldtr.cache.present = false ∨ s.ldtr.cache.byteLimit < 8 * (selIndex sel).toNat + 7 := by
  have hbit : bit sel 2 = true := h
  rw [State.outsideTable, if_pos hbit, selIndex, SegCache.present]

theorem inTable_eq_false_iff (s : State) (sel : Word16) : s.inTable sel = false ↔ s.outsideTable sel := by
  unfold State.inTable
  rw [selector_offset_toNat]
  cases hti : selTi sel with
  | true =>
    rw [outsideTable_ldt_iff hti, if_pos rfl, Bool.and_eq_false_iff, decide_eq_false_iff_not, Nat.not_le]
  | false =>
    rw [outsideTable_gdt_iff hti, if_neg (by decide), decide_eq_false_iff_not, Nat.not_le]

/-! ### Eight bytes as a number (20_memory.md R136) -/

theorem toNat_append_byte {n : Nat} (a : BitVec n) (b : Byte) : (a ++ b).toNat = b.toNat + 256 * a.toNat := by
  rw [BitVec.toNat_append, ← Nat.shiftLeft_add_eq_or_of_lt b.isLt, Nat.shiftLeft_eq]
  omega

theorem littleEndian_four (b0 b1 b2 b3 : Byte) : littleEndian [b0, b1, b2, b3] = (word32 b0 b1 b2 b3).toNat := by
  simp only [word32, toNat_append_byte, littleEndian, Nat.mul_zero, Nat.add_zero]

theorem littleEndian_append (as bs : List Byte) :
    littleEndian (as ++ bs) = littleEndian as + 256 ^ as.length * littleEndian bs := by
  induction as with
  | nil => simp [littleEndian]
  | cons a as ih =>
    rw [List.cons_append, littleEndian, ih, littleEndian, List.length_cons, pow_succ]
    ring

theorem addrsFrom_append (a : Word32) (m n : Nat) : addrsFrom a (m + n) = addrsFrom a m ++ addrsFrom (a + BitVec.ofNat 32 m) n := by
  induction m generalizing a with
  | zero => rw [Nat.zero_add]; exact congrArg (addrsFrom · n) (BitVec.add_zero a).symm
  | succ m ih =>
    have hnext : a + 1 + BitVec.ofNat 32 m = a + BitVec.ofNat 32 (m + 1) := by bv_omega
    rw [Nat.succ_add, addrsFrom, ih, hnext]
    rfl

theorem littleEndian_phys32 (s : State) (a : Word32) : littleEndian (s.bytesAt (addrsFrom a 4)) = (s.phys32 a).toNat := by
  rw [addrsFrom_four]
  exact littleEndian_four ..

/-- The low and the high double word of eight bytes. -/
theorem littleEndian_eight (s : State) (a : Word32) :
    littleEndian (s.bytesAt (addrsFrom a 8)) = (s.phys32 a).toNat + 2 ^ 32 * (s.phys32 (a + 4)).toNat := by
  have hsplit : s.bytesAt (addrsFrom a 8) = s.bytesAt (addrsFrom a 4) ++ s.bytesAt (addrsFrom (a + 4) 4) :=
    (congrArg s.bytesAt (addrsFrom_append a 4 4)).trans List.map_append
  have hlen : (s.bytesAt (addrsFrom a 4)).length = 4 := rfl
  rw [hsplit, littleEndian_append, hlen, littleEndian_phys32, littleEndian_phys32]
  norm_num

theorem halves_of_double (lo hi : Word32) : BitVec.ofNat 32 (lo.toNat + 2 ^ 32 * hi.toNat) = lo
    ∧ BitVec.ofNat 32 ((lo.toNat + 2 ^ 32 * hi.toNat) / 2 ^ 32) = hi := by
  have hlo := lo.isLt
  have hhi := hi.isLt
  exact ⟨BitVec.eq_of_toNat_eq (by rw [BitVec.toNat_ofNat]; omega), BitVec.eq_of_toNat_eq (by rw [BitVec.toNat_ofNat]; omega)⟩

/-! ### The descriptor of a selector -/

theorem readDescriptor_outside {s : State} {sel : Word16} (h : s.outsideTable sel) (bad : Exn) :
    readDescriptor sel bad s = .error (.exc bad) := by
  unfold readDescriptor
  rw [exec_bind_of_ok (exec_get s), (inTable_eq_false_iff s sel).mpr h]
  rfl

theorem readDescriptor_flat {s : State} {sel : Word16} (hflat : s.paging = false) (hin : ¬ s.outsideTable sel)
    (hdev : s.deviceAt (addrsFrom (s.descriptorAddr sel) 8) = false) (bad : Exn) :
    readDescriptor sel bad s = .ok (s.descriptorAt (s.descriptorAddr sel), s) := by
  have htable : s.inTable sel = true := by
    rwa [← inTable_eq_false_iff, Bool.not_eq_false] at hin
  unfold readDescriptor
  rw [exec_bind_of_ok (exec_get s), htable, Bool.not_true, exec_bind_of_ok (exec_raiseIf_false _ s),
    exec_bind_of_ok (sysRead_flat hflat hdev), exec_pure, littleEndian_eight, State.descriptorAt,
    (halves_of_double _ _).1, (halves_of_double _ _).2]

/-! ### The accessed bit (20_memory.md R151, R178) -/

theorem or_one_of_bit {v : BitVec 12} (h : bit v 0 = true) : v ||| 1 = v := by
  refine BitVec.eq_of_getLsbD_eq fun j hj => ?_
  cases j with
  | zero => rw [BitVec.getLsbD_or, show v.getLsbD 0 = true from h, Bool.true_or]
  | succ j => simp

/-- The accessed bit is the lowest of the TYPE and of the whole field (20_memory.md R149). -/
theorem withType_accessed (c : SegCache) : c.withType (setBit c.type 0 true) = { c with attr := c.attr ||| 1 } := by
  have hsplit : field c.attr 4 8 ++ field c.attr 0 4 = c.attr := (field_append_field c.attr 0 8 4).trans (field_self c.attr)
  have hor : field c.attr 4 8 ++ setBit c.type 0 true = c.attr ||| 1 := by
    conv_rhs => rw [← hsplit]
    exact (congrArg (· ++ _) BitVec.or_zero.symm).trans (append_or_append (field c.attr 4 8) 0 (field c.attr 0 4) 1).symm
  rw [SegCache.withType, hor]

theorem deviceAt_of_ram {s : State} {pas : List Word32} (h : s.ram pas = true) : s.deviceAt pas = false := by
  simp only [State.ram, List.all_eq_true, beq_iff_eq] at h
  simp only [State.deviceAt, List.any_eq_false, beq_iff_eq]
  intro a ha
  rw [h a ha]
  decide

/-- The read-modify-write of a descriptor's byte 5. -/
theorem updateType_flat {s : State} {sel : Word16} (hflat : s.paging = false)
    (hdev : s.deviceAt [s.descriptorAddr sel + 5] = false) (n : Nat) (b : Bool) :
    updateType sel n b s
      = .ok ((), s.storeByte (s.descriptorAddr sel + 5) (setBit (s.physByte (s.descriptorAddr sel + 5)) n b)) := by
  have hone : s.deviceAt (addrsFrom (s.descriptorAddr sel + 5) 1) = false := hdev
  unfold updateType
  rw [exec_bind_of_ok (exec_get s), exec_bind_of_ok (sysRead_flat hflat hone), sysWrite_flat hflat _ hone]
  simp [addrsFrom, State.bytesAt, littleEndian, toBytes, State.storeBytes]

theorem loadSeg_of_accessed {d : SegCache} (h : bit d.attr 0 = true) (r : SegReg) (sel : Word16) (s : State) :
    loadSeg r sel d s = .ok ((), { s with segs := s.segs.set r { sel := sel, cache := d } }) := by
  unfold loadSeg
  rw [h, Bool.not_true, exec_bind_of_ok (exec_onlyIf_false _ s), withType_accessed, or_one_of_bit h]
  rfl

theorem loadSeg_of_not_accessed {d : SegCache} {sel : Word16} {s : State} (h : bit d.attr 0 = false) (hflat : s.paging = false)
    (hdev : s.deviceAt [s.descriptorAddr sel + 5] = false) (r : SegReg) :
    loadSeg r sel d s = .ok ((), (s.storeByte (s.descriptorAddr sel + 5) (s.physByte (s.descriptorAddr sel + 5) ||| 1)).setSeg r
      { sel := sel, cache := { d with attr := d.attr ||| 1 } }) := by
  unfold loadSeg
  rw [h, Bool.not_false, exec_bind_of_ok ((exec_onlyIf_true _ s).trans (updateType_flat hflat hdev 0 true)), withType_accessed]
  rfl

/-- Settles O23: the offset of a selector's descriptor, the eight bytes in two double words, and the store of the accessed bit. -/
theorem descriptorFetched : Obligations.DescriptorFetched := by
  refine ⟨fun sel bad s => ⟨fun hti hout => readDescriptor_outside ((outsideTable_gdt_iff hti s).mpr hout) bad,
    fun hti hout => readDescriptor_outside ((outsideTable_ldt_iff hti s).mpr hout) bad, fun hflat hti hin => ?_,
    fun hflat hti hpresent hin => ?_⟩, fun lo hi => ⟨rfl, rfl, rfl⟩,
    fun r sel d s => ⟨fun h => loadSeg_of_accessed h r sel s, fun h hflat hwf hram => ?_⟩⟩
  · have haddr := descriptorAddr_eq s sel
    rw [if_neg (ne_of_eq_of_ne hti (by decide))] at haddr
    rw [← haddr]
    exact fun hdev => readDescriptor_flat hflat (mt (outsideTable_gdt_iff hti s).mp hin.not_gt) hdev bad
  · have haddr := descriptorAddr_eq s sel
    have hinside : ¬ s.outsideTable sel := by
      rw [outsideTable_ldt_iff hti, not_or]
      exact ⟨ne_of_eq_of_ne hpresent (by decide), hin.not_gt⟩
    rw [if_pos hti] at haddr
    rw [← haddr]
    exact fun hdev => readDescriptor_flat hflat hinside hdev bad
  · have hkind : s.part.kindAt (s.descriptorAddr sel + 5) = .ram := by simpa [State.ram] using hram
    exact ⟨_, loadSeg_of_not_accessed h hflat (deviceAt_of_ram hram) r, rfl, physByte_storeByte _ hkind hwf,
      fun a ha => physByte_storeByte_other _ ha hwf⟩

end Sys2Proof.Machine
end

section
/-! PROOFS. Access through a segment (20_memory.md R144, R149, R152, R160) and effective addresses (30_encoding.md R200 to R205). -/

namespace Sys2Proof.Machine

/-! ### Rights and limits -/

/-- In Real Mode and Virtual-86 Mode no byte is above offset 0xFFFF (20_memory.md R144). -/
theorem segAllows_iff_of_not_prot {s : State} (h : s.prot = false) (r : SegReg) (w : Bool) (off : Word32) (n : Nat) :
    s.segAllows r w off n = true ↔ off.toNat + n ≤ 0x10000 := by
  rw [State.segAllows, h, if_neg (by decide), decide_eq_true_iff]
  omega

/-- The limit holds every byte, from above in a segment that expands down (20_memory.md R149, R152). -/
theorem inLimit_iff (c : SegCache) (off : Word32) (n : Nat) :
    c.inLimit off n = true ↔ if c.expandDown = true
      then c.byteLimit < off.toNat ∧ off.toNat + n ≤ (if bit c.attr 10 then 2 ^ 32 else 2 ^ 16)
      else off.toNat + n ≤ c.byteLimit + 1 := by
  unfold SegCache.inLimit
  cases c.expandDown with
  | true =>
    have hlast : off.toNat + n - 1 ≤ (if c.big then 0xFFFFFFFF else 0xFFFF)
        ↔ off.toNat + n ≤ if bit c.attr 10 then 2 ^ 32 else 2 ^ 16 := by
      unfold SegCache.big
      split <;> omega
    rw [if_pos rfl, if_pos rfl, Bool.and_eq_true, decide_eq_true_iff, decide_eq_true_iff, hlast]
  | false =>
    rw [if_neg (by decide), if_neg (by decide), decide_eq_true_iff]
    omega

/-- A write needs a writable data segment, a read a data segment or a readable code segment (20_memory.md R149, R152). -/
theorem rights_iff (c : SegCache) (w : Bool) : (if w then c.writable else c.readable) = true ↔
    bit c.attr 4 = true ∧ (w = true → bit c.attr 3 = false ∧ bit c.attr 1 = true)
      ∧ (w = false → bit c.attr 3 = false ∨ bit c.attr 1 = true) := by
  unfold SegCache.writable SegCache.readable SegCache.isData SegCache.isCode SegCache.codeOrData
  cases w <;> cases bit c.attr 4 <;> cases bit c.attr 3 <;> simp

theorem expandDown_iff {c : SegCache} (h : bit c.attr 4 = true) :
    c.expandDown = true ↔ bit c.attr 3 = false ∧ bit c.attr 2 = true := by
  simp [SegCache.expandDown, SegCache.isData, SegCache.codeOrData, h]

theorem allows_iff (c : SegCache) (w : Bool) (off : Word32) (n : Nat) :
    c.allows w off n = true ↔ bit c.attr 7 = true ∧ bit c.attr 4 = true
      ∧ (w = true → bit c.attr 3 = false ∧ bit c.attr 1 = true)
      ∧ (w = false → bit c.attr 3 = false ∨ bit c.attr 1 = true)
      ∧ if bit c.attr 3 = false ∧ bit c.attr 2 = true
          then c.byteLimit < off.toNat ∧ off.toNat + n ≤ (if bit c.attr 10 then 2 ^ 32 else 2 ^ 16)
          else off.toNat + n ≤ c.byteLimit + 1 := by
  rw [SegCache.allows, Bool.and_eq_true, Bool.and_eq_true, rights_iff, inLimit_iff c off n, SegCache.present]
  constructor
  · rintro ⟨⟨hpresent, hseg, hwrite, hread⟩, hlimit⟩
    simp only [expandDown_iff hseg] at hlimit
    exact ⟨hpresent, hseg, hwrite, hread, hlimit⟩
  · rintro ⟨hpresent, hseg, hwrite, hread, hlimit⟩
    simp only [expandDown_iff hseg]
    exact ⟨⟨hpresent, hseg, hwrite, hread⟩, hlimit⟩

theorem segAllows_of_prot {s : State} (h : s.prot = true) (r : SegReg) (w : Bool) (off : Word32) (n : Nat) :
    s.segAllows r w off n = (s.seg r).cache.allows w off n := by
  rw [State.segAllows, h, if_pos rfl]

/-! ### The access -/

theorem operandBytes_of_not_allowed {s : State} {r : SegReg} {w : Bool} {off : Word32} {n : Nat}
    (h : s.segAllows r w off n = false) : operandBytes r w off n s = .error (.exc (segExn r)) := by
  unfold operandBytes
  rw [exec_bind_of_ok (exec_get s), h]
  rfl

theorem operandBytes_device {s : State} (hflat : s.paging = false) {r : SegReg} {w : Bool} {off : Word32} {n : Nat}
    (ha : s.segAllows r w off n = true) (hd : s.deviceAt (addrsFrom (s.linear r off) n) = true) :
    operandBytes r w off n s = .error (.refused .deviceAccess) := by
  unfold operandBytes
  rw [exec_bind_of_ok (exec_get s), ha, Bool.not_true, exec_bind_of_ok (exec_raiseIf_false _ s),
    exec_bind_of_error (translateRange_device hflat _ hd)]

/-- An access that answers has translated its range and noted the breakpoint conditions it meets. -/
theorem operandBytes_ok {r : SegReg} {w : Bool} {off : Word32} {n : Nat} {s t : State} {pas : List Word32}
    (h : operandBytes r w off n s = .ok (pas, t)) : s.segAllows r w off n = true
      ∧ ∃ u, translateRange (s.access w) (s.linear r off) n s = .ok (pas, u) ∧ t = u.noted (.data w (s.linear r off) n) := by
  unfold operandBytes at h
  obtain ⟨_, _, hget, h⟩ := exec_bind_ok h
  cases hget
  obtain ⟨_, v, hallow, h⟩ := exec_bind_ok h
  obtain ⟨hallow, hv⟩ := raiseIf_ok hallow
  rw [hv] at h
  obtain ⟨qas, u, hrange, h⟩ := exec_bind_ok h
  obtain ⟨_, _, hnote, h⟩ := exec_bind_ok h
  cases hnote
  cases h
  exact ⟨by simpa using hallow, u, hrange, rfl⟩

theorem translateRange_noDevice {acc : Access} {lin : Word32} {n : Nat} {s t : State} {pas : List Word32}
    (h : translateRange acc lin n s = .ok (pas, t)) : t.deviceAt pas = false := by
  unfold translateRange at h
  obtain ⟨_, u, hfrom, h⟩ := exec_bind_ok h
  obtain ⟨_, _, hget, h⟩ := exec_bind_ok h
  cases hget
  obtain ⟨_, v, hdevice, h⟩ := exec_bind_ok h
  obtain ⟨hnone, hv⟩ := refuseIf_ok hdevice
  cases h
  rw [hv, hnone]

theorem Accessed.deviceAt {s t : State} {lins : List Word32} (h : Accessed s t lins) (pas : List Word32) :
    t.deviceAt pas = s.deviceAt pas := by
  rw [h.rest]
  rfl

theorem Accessed.noted {s t : State} {lins : List Word32} (h : Accessed s t lins) (a : BpAccess) : Accessed s (t.noted a) lins where
  rest := registersKept_frame.trans s t _ h.rest rfl
  bytes := h.bytes
  bits := h.bits

theorem accessed_operandBytes {r : SegReg} {w : Bool} {off : Word32} {n : Nat} {s t : State} {pas : List Word32}
    (hwf : Memory.wf s.mem = true) (h : operandBytes r w off n s = .ok (pas, t)) :
    pas.length = n ∧ s.deviceAt pas = false ∧ Accessed s t (addrsFrom (s.linear r off) n) := by
  obtain ⟨-, u, hrange, rfl⟩ := operandBytes_ok h
  obtain ⟨haccessed, hlen⟩ := accessed_translateRange hwf hrange
  exact ⟨hlen, haccessed.deviceAt pas ▸ translateRange_noDevice hrange, haccessed.noted _⟩

/-! ### Effective addresses -/

/-- An index times 1, 2, 4 or 8 (30_encoding.md R201). -/
theorem scaledIndex_eq (s : State) (scale : BitVec 2) (index : Gpr) :
    s.scaledIndex scale index = if index = .esp then 0 else s.reg index * BitVec.ofNat 32 (2 ^ scale.toNat) := by
  unfold State.scaledIndex
  split
  · rfl
  · have hpow : BitVec.twoPow 32 scale.toNat = BitVec.ofNat 32 (2 ^ scale.toNat) := BitVec.eq_of_toNat_eq (by simp)
    rw [BitVec.shiftLeft_eq_mul_twoPow, hpow]

theorem segment16_base (b : Base16) (d : Disp16) :
    segment16 (.base b d) = if b ∈ [Base16.bpsi, .bpdi, .bp] then .ss else .ds := by
  cases b <;> rfl

theorem segment32_base (x : Gpr) (d : Disp32) : segment32 (.base x d) = if x ∈ [Gpr.ebp, .esp] then .ss else .ds := by
  cases x <;> rfl

theorem segment32_sib (scale : BitVec 2) (y x : Gpr) (d : Disp32) :
    segment32 (.sib scale y x d) = if x ∈ [Gpr.ebp, .esp] then .ss else .ds := by
  cases x <;> rfl

/-- The last segment override wins (log 21). -/
theorem overridden_append (r : SegReg) (p : List Prefix) (q : Prefix) :
    overridden r (p ++ [q]) = match q with | .seg z => z | _ => overridden r p := by
  induction p generalizing r with
  | nil => cases q <;> rfl
  | cons a p ih => cases a <;> exact ih _

/-- Settles O19: rights and limits, what an access with and without paging answers, and the addressing modes one by one. -/
theorem operandAccess : Obligations.OperandAccess := by
  refine ⟨fun r w off n s => ⟨operandBytes_of_not_allowed, fun _ hprot => segAllows_iff_of_not_prot hprot r w off n,
    fun _ hprot => ?_, fun ha hflat => ⟨operandBytes_device hflat ha, fun hdev => ?_⟩,
    fun pas t hwf h => accessed_operandBytes hwf h⟩, fun s x y sc b d8 d16 d32 => ?_⟩
  · rw [segAllows_of_prot hprot]
    exact allows_iff _ w off n
  · exact ⟨_, operandBytes_flat hflat ha hdev, rfl, rfl⟩
  · intro sum index
    have hsum : s.base16 b = sum := by cases b <;> rfl
    have hindex : s.scaledIndex sc y = index := scaledIndex_eq s sc y
    rw [← hsum, ← hindex]
    refine ⟨rfl, congrArg zext32 (BitVec.add_zero (s.base16 b)), rfl, rfl, rfl, BitVec.add_zero _, rfl, rfl, BitVec.add_zero _, rfl,
      rfl, BitVec.add_comm .., segment16_base b, fun e => ⟨segment32_base x e, segment32_sib sc y x e⟩, rfl, rfl, rfl,
      fun p q o => overridden_append _ p q⟩

end Sys2Proof.Machine
end

section
/-! PROOFS. Translation with paging on (20_memory.md R163 to R169): the rights, the error codes, what a walk finds through each kind
of directory entry, and what a translation does with it. -/

namespace Sys2Proof.Machine

/-! ### Rights and error codes -/

/-- The table of R166: level 3 needs U, and W to write; the other levels need W to write under CR0.WP. -/
theorem pageAllows_iff (s : State) (acc : Access) (u w : Bool) : s.pageAllows acc u w = true ↔
    (acc.user = true → u = true ∧ (acc.write = true → w = true))
      ∧ (acc.user = false → acc.write = true → bit s.cr0 16 = true → w = true) := by
  unfold State.pageAllows State.wp
  cases acc.user with
  | true => cases acc.write <;> simp
  | false => cases acc.write <;> cases bit s.cr0 16 <;> simp

/-- The bits of the error code (20_memory.md R168). -/
theorem faultCode_eq (acc : Access) (present reserved : Bool) : faultCode acc present reserved
    = BitVec.ofNat 32 (present.toNat + 8 * reserved.toNat) + ((if acc.write then 2 else 0) + (if acc.user then 4 else 0)) := by
  unfold faultCode
  cases acc.write <;> cases acc.user <;> cases present <;> cases reserved <;> rfl

/-! ### Accessed and dirty bits (20_memory.md R167) -/

/-- The entry at `pa` has been used: A is set, and D too by a write. -/
def State.entryUsed (s : State) (dirty : Bool) (pa : Word32) : Prop :=
  bit (s.phys32 pa) 5 = true ∧ (dirty = true → bit (s.phys32 pa) 6 = true)

theorem bit_markUsed_dirty (e : Word32) : bit (markUsed true e) 6 = true := by
  simp [bit, markUsed, getLsbD_setBit]

theorem entryUsed_iff (s : State) (dirty : Bool) (pa : Word32) :
    s.entryUsed dirty pa ↔ bit (s.physByte pa) 5 = true ∧ (dirty = true → bit (s.physByte pa) 6 = true) := by
  rw [State.entryUsed, State.phys32, bit_word32_low _ _ _ _ (by decide), bit_word32_low _ _ _ _ (by decide)]

theorem entryUsed_of_mem_eq {s t : State} (h : t.mem = s.mem) {dirty : Bool} {pa : Word32} (hs : s.entryUsed dirty pa) :
    t.entryUsed dirty pa := by
  have hbyte : t.physByte = s.physByte := by
    unfold State.physByte
    rw [h]
  rw [entryUsed_iff] at *
  rwa [hbyte]

/-- In ordinary memory the entry that a walk stores is a used one. -/
theorem entryUsed_store32 {s : State} (h : Memory.wf s.mem = true) (dirty : Bool) {pa : Word32}
    (hram : s.ram (addrsFrom pa 4) = true) : (s.store32 pa (markUsed dirty (s.phys32 pa))).entryUsed dirty pa := by
  have hkind : s.part.kindAt pa = .ram := by
    simp only [State.ram, addrsFrom, List.all_cons, Bool.and_eq_true, beq_iff_eq] at hram
    exact hram.1
  have hbyte : (s.store32 pa (markUsed dirty (s.phys32 pa))).physByte pa = s.physByte pa ||| if dirty then 0x60 else 0x20 := by
    rw [State.phys32, markUsed_word32, physByte_store32 h, physByte_storeByte _ hkind h]
  have hmark : ∀ (b : Byte) (d : Bool), bit (b ||| if d then 0x60 else 0x20) 5 = true
      ∧ (d = true → bit (b ||| if d then 0x60 else 0x20) 6 = true) := by decide
  rw [entryUsed_iff, hbyte]
  exact hmark _ dirty

theorem bit_of_bitsSet {b c : Byte} (h : BitsSet b c) {n : Nat} (hb : bit b n = true) : bit c n = true := by
  unfold BitsSet at h
  unfold bit at *
  rw [← h, BitVec.getLsbD_or, hb, Bool.true_or]

/-- A used entry stays used when more entries are marked. -/
theorem Marked.entryUsed {s t : State} {pas : List Word32} (h : Marked s t pas) {dirty : Bool} {pa : Word32}
    (hs : s.entryUsed dirty pa) : t.entryUsed dirty pa := by
  rw [entryUsed_iff] at *
  exact ⟨bit_of_bitsSet (h.bits pa) hs.1, fun hd => bit_of_bitsSet (h.bits pa) (hs.2 hd)⟩

/-! ### The walk -/

/-- The directory entry of a linear address (20_memory.md R163). -/
def State.pdeOf (s : State) (lin : Word32) : Word32 := s.phys32 (s.pdeAddr lin)

/-- The address of its table entry. -/
def State.pteAt (s : State) (lin : Word32) : Word32 := pteAddr (s.pdeOf lin) lin

/-- Its table entry. -/
def State.pteOf (s : State) (lin : Word32) : Word32 := s.phys32 (s.pteAt lin)

/-- The translation that a directory entry `pde` gives which maps 4 MB (20_memory.md R165). -/
def largeEntry (dirty : Bool) (pde lin : Word32) : TlbEntry :=
  { lin := field lin 12 20, v := true, d := dirty, u := bit pde 2, w := bit pde 1, phys := field pde 22 10 ++ field lin 12 10 }

/-- The translation that a directory entry and a table entry give (20_memory.md R163). -/
def smallEntry (dirty : Bool) (pde pte lin : Word32) : TlbEntry :=
  { lin := field lin 12 20, v := true, d := dirty, u := bit pde 2 && bit pte 2, w := bit pde 1 && bit pte 1, phys := field pte 12 20 }

/-- The state after a walk through a directory entry that maps 4 MB. -/
def State.walkedLarge (s : State) (write : Bool) (lin : Word32) : State :=
  s.store32 (s.pdeAddr lin) (markUsed write (s.pdeOf lin))

/-- The state after the directory entry of a walk through both tables is marked. -/
def State.walkedDirectory (s : State) (lin : Word32) : State := s.store32 (s.pdeAddr lin) (markUsed false (s.pdeOf lin))

/-- The state after a walk through both tables. -/
def State.walkedSmall (s : State) (write : Bool) (lin : Word32) : State :=
  (s.walkedDirectory lin).store32 (s.pteAt lin) (markUsed write ((s.walkedDirectory lin).phys32 (s.pteAt lin)))

section
variable {s : State} {acc : Access} {lin : Word32} (hdev : s.deviceAt (addrsFrom (s.pdeAddr lin) 4) = false)
include hdev

theorem walk_of_pde_absent (h : bit (s.pdeOf lin) 0 = false) :
    walk acc lin s = .error (.exc (.pf lin (faultCode acc false false))) := by
  unfold State.pdeOf at h
  simp [walk, exec_bind, hdev, h]

/-- Through a directory entry that maps 4 MB (20_memory.md R165; log 35). -/
theorem walk_large (hp : bit (s.pdeOf lin) 0 = true) (hbig : s.maps4M (s.pdeOf lin) = true) : walk acc lin s =
    if field (s.pdeOf lin) 12 10 ≠ 0 then .error (.exc (.pf lin (faultCode acc true true)))
    else if s.pageAllows acc (bit (s.pdeOf lin) 2) (bit (s.pdeOf lin) 1) = false then
      .error (.exc (.pf lin (faultCode acc true false)))
    else .ok (largeEntry (bit (markUsed acc.write (s.pdeOf lin)) 6) (s.pdeOf lin) lin, s.walkedLarge acc.write lin) := by
  unfold State.pdeOf at hp hbig
  unfold State.walkedLarge State.pdeOf
  by_cases hres : field (s.phys32 (s.pdeAddr lin)) 12 10 = 0
  · cases hrights : s.pageAllows acc (bit (s.phys32 (s.pdeAddr lin)) 2) (bit (s.phys32 (s.pdeAddr lin)) 1) with
    | false => simp [walk, exec_bind, hdev, hp, hbig, hres, hrights]
    | true => simp [walk, exec_bind, hdev, hp, hbig, hres, hrights, largeEntry, -bind_pure_comp]
  · have hbne : (field (s.phys32 (s.pdeAddr lin)) 12 10 != 0) = true := bne_iff_ne.mpr hres
    rw [if_pos hres]
    simp only [walk, exec_bind, exec_get, hdev, hp, hbig, hbne, exec_refuseIf_false, Bool.not_true, exec_raiseIf_false,
      exec_raiseIf_true, if_true]

/-- Through the directory and the table (20_memory.md R163). -/
theorem walk_small (hp : bit (s.pdeOf lin) 0 = true) (hbig : s.maps4M (s.pdeOf lin) = false)
    (hdev' : s.deviceAt (addrsFrom (s.pteAt lin) 4) = false) : walk acc lin s =
    if bit (s.pteOf lin) 0 = false then .error (.exc (.pf lin (faultCode acc false false)))
    else if s.pageAllows acc (bit (s.pdeOf lin) 2 && bit (s.pteOf lin) 2) (bit (s.pdeOf lin) 1 && bit (s.pteOf lin) 1) = false then
      .error (.exc (.pf lin (faultCode acc true false)))
    else .ok (smallEntry (bit (markUsed acc.write ((s.walkedDirectory lin).phys32 (s.pteAt lin))) 6) (s.pdeOf lin) (s.pteOf lin) lin,
      s.walkedSmall acc.write lin) := by
  unfold State.pteAt State.pdeOf at hdev'
  unfold State.pdeOf at hp hbig
  unfold State.walkedSmall State.walkedDirectory State.pteOf State.pteAt State.pdeOf
  cases hpte : bit (s.phys32 (pteAddr (s.phys32 (s.pdeAddr lin)) lin)) 0 with
  | false => simp [walk, exec_bind, hdev, hdev', hp, hbig, hpte]
  | true =>
    cases hrights : s.pageAllows acc (bit (s.phys32 (s.pdeAddr lin)) 2 && bit (s.phys32 (pteAddr (s.phys32 (s.pdeAddr lin)) lin)) 2)
      (bit (s.phys32 (s.pdeAddr lin)) 1 && bit (s.phys32 (pteAddr (s.phys32 (s.pdeAddr lin)) lin)) 1) with
    | false => simp [walk, exec_bind, hdev, hdev', hp, hbig, hpte, hrights]
    | true => simp [walk, exec_bind, hdev, hdev', hp, hbig, hpte, hrights, smallEntry, -bind_pure_comp]

end

theorem maps4M_iff (s : State) (pde : Word32) : s.maps4M pde = true ↔ s.pse = true ∧ bit pde 7 = true := by
  rw [State.maps4M, Bool.and_eq_true]

theorem store32_wf {s : State} (h : Memory.wf s.mem = true) (pa v : Word32) : Memory.wf (s.store32 pa v).mem = true :=
  storeBytes_wf _ _ h

@[simp] theorem store32_part (s : State) (pa v : Word32) : (s.store32 pa v).part = s.part := storeBytes_part ..

@[simp] theorem store32_tlb (s : State) (pa v : Word32) : (s.store32 pa v).tlb = s.tlb := storeBytes_tlb ..

@[simp] theorem walkedLarge_part (s : State) (write : Bool) (lin : Word32) : (s.walkedLarge write lin).part = s.part :=
  store32_part ..

@[simp] theorem walkedLarge_tlb (s : State) (write : Bool) (lin : Word32) : (s.walkedLarge write lin).tlb = s.tlb :=
  store32_tlb ..

@[simp] theorem walkedDirectory_part (s : State) (lin : Word32) : (s.walkedDirectory lin).part = s.part := store32_part ..

@[simp] theorem walkedSmall_part (s : State) (write : Bool) (lin : Word32) : (s.walkedSmall write lin).part = s.part :=
  (store32_part ..).trans (store32_part ..)

@[simp] theorem walkedSmall_tlb (s : State) (write : Bool) (lin : Word32) : (s.walkedSmall write lin).tlb = s.tlb :=
  (store32_tlb ..).trans (store32_tlb ..)

theorem setTlb_of_tlb_eq {s t : State} (htlb : t.tlb = s.tlb) (hpart : t.part = s.part) (b : BitVec 2) (page : BitVec 20)
    (e : TlbEntry) : (t.setTlb b page e).tlb = s.tlb.set (s.tlbSlot b page) e := by
  unfold State.setTlb State.tlbSlot
  rw [htlb, hpart]

theorem walkedDirectory_wf {s : State} (h : Memory.wf s.mem = true) (lin : Word32) : Memory.wf (s.walkedDirectory lin).mem = true :=
  store32_wf h _ _

theorem entryUsed_walkedLarge {s : State} (h : Memory.wf s.mem = true) (write : Bool) {lin : Word32}
    (hram : s.ram (addrsFrom (s.pdeAddr lin) 4) = true) : (s.walkedLarge write lin).entryUsed write (s.pdeAddr lin) :=
  entryUsed_store32 h write hram

theorem entryUsed_walkedSmall_pde {s : State} (h : Memory.wf s.mem = true) (write : Bool) {lin : Word32}
    (hram : s.ram (addrsFrom (s.pdeAddr lin) 4) = true) : (s.walkedSmall write lin).entryUsed false (s.pdeAddr lin) := by
  have hdirectory : (s.walkedDirectory lin).entryUsed false (s.pdeAddr lin) := entryUsed_store32 h false hram
  exact (marked_store32 (walkedDirectory_wf h lin) write (s.pteAt lin)).entryUsed hdirectory

theorem entryUsed_walkedSmall_pte {s : State} (h : Memory.wf s.mem = true) (write : Bool) {lin : Word32}
    (hram : s.ram (addrsFrom (s.pteAt lin) 4) = true) : (s.walkedSmall write lin).entryUsed write (s.pteAt lin) := by
  have hram' : (s.walkedDirectory lin).ram (addrsFrom (s.pteAt lin) 4) = true := by
    unfold State.ram at *
    rwa [walkedDirectory_part]
  exact entryUsed_store32 (walkedDirectory_wf h lin) write hram'

/-- A 4 MB page gives the low 22 bits of the linear address (20_memory.md R165). -/
theorem inPage_large (pde lin : Word32) : inPage (field pde 22 10 ++ field lin 12 10) lin = field pde 22 10 ++ field lin 0 22 := by
  have hlow : field lin 12 10 ++ field lin 0 12 = field lin 0 22 := field_append_field lin 0 10 12
  rw [← hlow]
  exact BitVec.append_assoc

/-! ### The translation -/

theorem fillTlb_ok (page : BitVec 20) (e : TlbEntry) (s : State) : ∃ t, fillTlb page e s = .ok ((), t) ∧ t.mem = s.mem := by
  unfold fillTlb
  rw [exec_bind_of_ok (exec_draw s), exec_bind_of_ok (exec_modify _ _)]
  cases Config.tlbFill s.draws with
  | some b => exact ⟨_, rfl, rfl⟩
  | none => exact ⟨_, rfl, rfl⟩

section
variable {s : State} {acc : Access} {lin : Word32} (hpaging : s.paging = true)
include hpaging

theorem translate_miss_error (hmiss : s.tlbHits (field lin 12 20) = []) {e : Stop} (h : walk acc lin s = .error e) :
    translate acc lin s = .error e := by
  unfold translate
  rw [exec_bind_of_ok (exec_get s)]
  simp only [hpaging, Bool.not_true, Bool.false_eq_true, if_false, hmiss]
  exact exec_bind_of_error h

/-- A miss gives the page that the walk finds; after the walk it changes the TLB only (20_memory.md R169). -/
theorem translate_miss (hmiss : s.tlbHits (field lin 12 20) = []) {e : TlbEntry} {t : State} (h : walk acc lin s = .ok (e, t)) :
    ∃ u, translate acc lin s = .ok (inPage e.phys lin, u) ∧ u.mem = t.mem := by
  obtain ⟨u, hfill, hmem⟩ := fillTlb_ok (field lin 12 20) e t
  refine ⟨u, ?_, hmem⟩
  unfold translate
  rw [exec_bind_of_ok (exec_get s)]
  simp only [hpaging, Bool.not_true, Bool.false_eq_true, if_false, hmiss]
  rw [exec_bind_of_ok h, exec_bind_of_ok hfill, exec_pure]

variable {b : BitVec 2} (hhit : s.tlbHits (field lin 12 20) = [b])
include hhit

theorem translate_hit_denied
    (h : s.pageAllows acc (s.tlbEntry b (field lin 12 20)).u (s.tlbEntry b (field lin 12 20)).w = false) :
    translate acc lin s = .error (.exc (.pf lin (faultCode acc true false))) := by
  unfold translate
  rw [exec_bind_of_ok (exec_get s)]
  simp only [hpaging, Bool.not_true, Bool.false_eq_true, if_false, hhit, h, Bool.not_false]
  exact exec_bind_of_error (exec_raiseIf_true _ s)

theorem translate_hit
    (h : s.pageAllows acc (s.tlbEntry b (field lin 12 20)).u (s.tlbEntry b (field lin 12 20)).w = true)
    (hclean : acc.write = true → (s.tlbEntry b (field lin 12 20)).d = true) :
    translate acc lin s = .ok (inPage (s.tlbEntry b (field lin 12 20)).phys lin, s) := by
  have hwalk : (acc.write && !(s.tlbEntry b (field lin 12 20)).d) = false := by
    rw [Bool.and_eq_false_imp]
    exact fun hw => by rw [hclean hw]; rfl
  unfold translate
  rw [exec_bind_of_ok (exec_get s)]
  simp only [hpaging, Bool.not_true, Bool.false_eq_true, if_false, hhit, h, hwalk]
  rw [exec_bind_of_ok (exec_raiseIf_false _ s), exec_pure]

/-- A write through an entry with D = 0 walks, and the walk's translation takes the entry's place (R167; log 10). -/
theorem translate_dirty
    (h : s.pageAllows acc (s.tlbEntry b (field lin 12 20)).u (s.tlbEntry b (field lin 12 20)).w = true)
    (hwrite : acc.write = true) (hdirty : (s.tlbEntry b (field lin 12 20)).d = false) {e : TlbEntry} {t : State}
    (hwalk : walk acc lin s = .ok (e, t)) :
    translate acc lin s = .ok (inPage e.phys lin, t.setTlb b (field lin 12 20) e) := by
  unfold translate
  rw [exec_bind_of_ok (exec_get s)]
  simp only [hpaging, Bool.not_true, Bool.false_eq_true, if_false, hhit, h, hwrite, hdirty, Bool.not_false, Bool.and_self, if_true]
  rw [exec_bind_of_ok (exec_raiseIf_false _ s), exec_bind_of_ok hwalk, exec_bind_of_ok (exec_modify _ t), exec_pure]

end

/-! ### The statement, by the kind of directory entry -/

section
variable {s : State} {acc : Access} {lin : Word32} (hpaging : s.paging = true) (hwf : Memory.wf s.mem = true)
  (hdev : s.deviceAt (addrsFrom (s.pdeAddr lin) 4) = false) (hp : bit (s.pdeOf lin) 0 = true)
include hpaging hwf hdev hp

section
variable (hbig : s.maps4M (s.pdeOf lin) = true) (hres : field (s.pdeOf lin) 12 10 = 0)
  (hrights : s.pageAllows acc (bit (s.pdeOf lin) 2) (bit (s.pdeOf lin) 1) = true)
include hbig hres hrights

theorem translate_miss_large (hmiss : s.tlbHits (field lin 12 20) = []) :
    ∃ t, translate acc lin s = .ok (field (s.pdeOf lin) 22 10 ++ field lin 0 22, t) ∧ Accessed s t [lin]
      ∧ (s.ram (addrsFrom (s.pdeAddr lin) 4) = true → t.entryUsed acc.write (s.pdeAddr lin)) := by
  have hwalk := walk_large (acc := acc) hdev hp hbig
  rw [if_neg (not_not.mpr hres), if_neg (ne_of_eq_of_ne hrights (by decide))] at hwalk
  obtain ⟨t, htranslate, hmem⟩ := translate_miss hpaging hmiss hwalk
  rw [← inPage_large]
  exact ⟨t, htranslate, (marked_translate hwf htranslate).accessed,
    fun hram => entryUsed_of_mem_eq hmem (entryUsed_walkedLarge hwf acc.write hram)⟩

theorem translate_dirty_large {b : BitVec 2} (hhit : s.tlbHits (field lin 12 20) = [b])
    (hallow : s.pageAllows acc (s.tlbEntry b (field lin 12 20)).u (s.tlbEntry b (field lin 12 20)).w = true)
    (hwrite : acc.write = true) (hdirty : (s.tlbEntry b (field lin 12 20)).d = false) :
    ∃ t, translate acc lin s = .ok (field (s.pdeOf lin) 22 10 ++ field lin 0 22, t) ∧ Accessed s t [lin]
      ∧ (s.ram (addrsFrom (s.pdeAddr lin) 4) = true → t.entryUsed true (s.pdeAddr lin))
      ∧ t.tlb = s.tlb.set (s.tlbSlot b (field lin 12 20)) (largeEntry true (s.pdeOf lin) lin) := by
  have hwalk := walk_large (acc := acc) hdev hp hbig
  rw [if_neg (not_not.mpr hres), if_neg (ne_of_eq_of_ne hrights (by decide)), hwrite, bit_markUsed_dirty] at hwalk
  have htranslate := translate_dirty hpaging hhit hallow hwrite hdirty hwalk
  rw [← inPage_large]
  exact ⟨_, htranslate, (marked_translate hwf htranslate).accessed,
    fun hram => entryUsed_of_mem_eq (setTlb_mem ..) (entryUsed_walkedLarge hwf true hram),
    setTlb_of_tlb_eq (walkedLarge_tlb ..) (walkedLarge_part ..) ..⟩

end

section
variable (hbig : s.maps4M (s.pdeOf lin) = false) (hdev' : s.deviceAt (addrsFrom (s.pteAt lin) 4) = false)
  (hp' : bit (s.pteOf lin) 0 = true)
  (hrights : s.pageAllows acc (bit (s.pdeOf lin) 2 && bit (s.pteOf lin) 2) (bit (s.pdeOf lin) 1 && bit (s.pteOf lin) 1) = true)
include hbig hdev' hp' hrights

theorem translate_miss_small (hmiss : s.tlbHits (field lin 12 20) = []) :
    ∃ t, translate acc lin s = .ok (field (s.pteOf lin) 12 20 ++ field lin 0 12, t) ∧ Accessed s t [lin]
      ∧ (s.ram (addrsFrom (s.pdeAddr lin) 4) = true → t.entryUsed false (s.pdeAddr lin))
      ∧ (s.ram (addrsFrom (s.pteAt lin) 4) = true → t.entryUsed acc.write (s.pteAt lin)) := by
  have hwalk := walk_small (acc := acc) hdev hp hbig hdev'
  rw [if_neg (ne_of_eq_of_ne hp' (by decide)), if_neg (ne_of_eq_of_ne hrights (by decide))] at hwalk
  obtain ⟨t, htranslate, hmem⟩ := translate_miss hpaging hmiss hwalk
  exact ⟨t, htranslate, (marked_translate hwf htranslate).accessed,
    fun hram => entryUsed_of_mem_eq hmem (entryUsed_walkedSmall_pde hwf acc.write hram),
    fun hram => entryUsed_of_mem_eq hmem (entryUsed_walkedSmall_pte hwf acc.write hram)⟩

theorem translate_dirty_small {b : BitVec 2} (hhit : s.tlbHits (field lin 12 20) = [b])
    (hallow : s.pageAllows acc (s.tlbEntry b (field lin 12 20)).u (s.tlbEntry b (field lin 12 20)).w = true)
    (hwrite : acc.write = true) (hdirty : (s.tlbEntry b (field lin 12 20)).d = false) :
    ∃ t, translate acc lin s = .ok (field (s.pteOf lin) 12 20 ++ field lin 0 12, t) ∧ Accessed s t [lin]
      ∧ (s.ram (addrsFrom (s.pteAt lin) 4) = true → t.entryUsed true (s.pteAt lin))
      ∧ t.tlb = s.tlb.set (s.tlbSlot b (field lin 12 20)) (smallEntry true (s.pdeOf lin) (s.pteOf lin) lin) := by
  have hwalk := walk_small (acc := acc) hdev hp hbig hdev'
  rw [if_neg (ne_of_eq_of_ne hp' (by decide)), if_neg (ne_of_eq_of_ne hrights (by decide)), hwrite, bit_markUsed_dirty] at hwalk
  have htranslate := translate_dirty hpaging hhit hallow hwrite hdirty hwalk
  exact ⟨_, htranslate, (marked_translate hwf htranslate).accessed,
    fun hram => entryUsed_of_mem_eq (setTlb_mem ..) (entryUsed_walkedSmall_pte hwf true hram),
    setTlb_of_tlb_eq (walkedSmall_tlb ..) (walkedSmall_part ..) ..⟩

end

end

/-- Settles O20: a hit, a walk through a directory entry that maps 4 MB, and a walk through both tables, each with its faults. -/
theorem pageTranslation : Obligations.PageTranslation := by
  intro acc lin s hpaging kind fault page pdeAt pde pteAt pte big large small
  have habsent : Except.error (.exc (.pf lin (faultCode acc false false))) = fault 0 := by rw [faultCode_eq]; rfl
  have hdenied : Except.error (.exc (.pf lin (faultCode acc true false))) = fault 1 := by rw [faultCode_eq]; rfl
  have hreserved : Except.error (.exc (.pf lin (faultCode acc true true))) = fault 9 := by rw [faultCode_eq]; rfl
  have hbig : s.maps4M (s.pdeOf lin) = true ↔ big := maps4M_iff s _
  have hnotBig : ¬ big → s.maps4M (s.pdeOf lin) = false := fun h => Bool.eq_false_of_not_eq_true (mt hbig.mp h)
  refine ⟨pageAllows_iff s acc, fun b hhit => ⟨fun h => ?hitDenied, fun h hclean => translate_hit hpaging hhit h hclean,
    fun h hwrite hdirty _ hwf hdev hp hb hdev' hp' hrights => ?dirtySmall,
    fun h hwrite hdirty _ hwf hdev hp hb hres hrights => ?dirtyLarge⟩,
    fun hmiss hdev => ⟨fun h => ?absentDirectory, fun hp hb => ⟨fun hres => ?reservedBits,
      fun hres hrights => ?deniedLarge, fun hres hrights hwf => ?missLarge⟩,
    fun hp hb hdev' => ⟨fun hp' => ?absentTable, fun hp' hrights => ?deniedSmall, fun hp' hrights hwf => ?missSmall⟩⟩⟩
  case hitDenied => exact (translate_hit_denied hpaging hhit h).trans hdenied
  case dirtySmall =>
    obtain ⟨t, ht, hacc, hused, htlb⟩ :=
      translate_dirty_small hpaging hwf hdev hp (hnotBig hb) hdev' hp' hrights hhit h hwrite hdirty
    exact ⟨t, ht, hacc, fun hram => (hused hram).2 rfl, htlb⟩
  case dirtyLarge =>
    obtain ⟨t, ht, hacc, hused, htlb⟩ :=
      translate_dirty_large hpaging hwf hdev hp (hbig.mpr hb) hres hrights hhit h hwrite hdirty
    exact ⟨t, ht, hacc, fun hram => (hused hram).2 rfl, htlb⟩
  case absentDirectory => exact (translate_miss_error hpaging hmiss (walk_of_pde_absent hdev h)).trans habsent
  case reservedBits =>
    exact (translate_miss_error hpaging hmiss ((walk_large hdev hp (hbig.mpr hb)).trans (if_pos hres))).trans hreserved
  case deniedLarge =>
    have hfalse := Bool.eq_false_of_not_eq_true hrights
    exact (translate_miss_error hpaging hmiss
      ((walk_large hdev hp (hbig.mpr hb)).trans ((if_neg (not_not.mpr hres)).trans (if_pos hfalse)))).trans hdenied
  case missLarge => exact translate_miss_large hpaging hwf hdev hp (hbig.mpr hb) hres hrights hmiss
  case absentTable =>
    exact (translate_miss_error hpaging hmiss ((walk_small hdev hp (hnotBig hb) hdev').trans (if_pos hp'))).trans habsent
  case deniedSmall =>
    have hfalse := Bool.eq_false_of_not_eq_true hrights
    exact (translate_miss_error hpaging hmiss ((walk_small hdev hp (hnotBig hb) hdev').trans
      ((if_neg (ne_of_eq_of_ne hp' (by decide))).trans (if_pos hfalse)))).trans hdenied
  case missSmall =>
    obtain ⟨t, ht, hacc, hpde, hpte⟩ := translate_miss_small hpaging hwf hdev hp (hnotBig hb) hdev' hp' hrights hmiss
    exact ⟨t, ht, hacc, fun hram => (hpde hram).1, hpte⟩

end Sys2Proof.Machine
end

section
/-! PROOFS. The round trip of decoder and encoder (30_encoding.md R190 to R209), and the encodings that no row of the table
matches (R196, R210). -/

namespace Sys2Proof

theorem wellFormed_iff {d : OpSize} {i : Instr} : i.wellFormed d = true ↔ i.operandsFit d = true ∧ i.size ≤ 15 := by
  rw [Instr.wellFormed, Bool.and_eq_true, decide_eq_true_eq]

theorem decode_encode_wellFormed {d : OpSize} {i : Instr} (h : i.wellFormed d = true) (rest : List Byte) :
    decode d (encode i ++ rest) = .ok (i, rest) := by
  obtain ⟨hfits, hsize⟩ := wellFormed_iff.mp h
  rw [decode_encode hfits, if_pos hsize]

/-- Settles O1: the decoder reads each part of an encoding whole (`decode_encode`), and a well-formed instruction is short enough. -/
theorem decodeEncodeAgree : Obligations.DecodeEncodeAgree :=
  fun _ _ rest h => decode_encode_wellFormed h rest

/-- Settles O2: each part of the decoder answers only for the bytes of its value (`decode_ok`). -/
theorem decodeIsExact : Obligations.DecodeIsExact :=
  fun _ _ _ _ h => decode_ok h

/-- Settles O3: each part of the decoder finds a proper front part of its bytes truncated (`decode_encode_take`). -/
theorem encodingsArePrefixFree : Obligations.EncodingsArePrefixFree :=
  fun _ _ _ h hn => decode_encode_take (wellFormed_iff.mp h).1 hn

/-- A word that is the encoding of a well-formed instruction stands for it. -/
theorem decode_word {d : OpSize} {i : Instr} {word : List Byte} (hword : encode i = word) (h : i.wellFormed d = true) :
    decode d word = .ok (i, []) := by
  rw [← hword, ← List.append_nil (encode i)]
  exact decode_encode_wellFormed h []

/-- Settles O4: each word is the encoding of its instruction, byte for byte. -/
theorem knownWordsDecode : Obligations.KnownWordsDecode :=
  ⟨decode_word rfl rfl, decode_word rfl rfl, decode_word rfl rfl, decode_word rfl rfl, decode_word rfl rfl, decode_word rfl rfl,
    decode_word rfl rfl, decode_word rfl rfl, decode_word rfl rfl⟩

/-! ### Invalid encodings -/

/-- `T` finds the bytes `bs` invalid, whatever follows them, and every proper front part of them truncated. -/
structure Rejects {α : Type} (T : List Byte → Except DecodeError (α × List Byte)) (bs : List Byte) : Prop where
  whole : ∀ rest, T (bs ++ rest) = .error .invalidOpcode
  front : ∀ k < bs.length, T (bs.take k) = .error .truncated

section
variable {α : Type} {T T' : List Byte → Except DecodeError (α × List Byte)} {b : Byte} {bs : List Byte}

theorem rejects_byte (hnil : T [] = .error .truncated) (hcons : ∀ l, T (b :: l) = .error .invalidOpcode) : Rejects T [b] where
  whole := hcons
  front k hk := by
    obtain rfl : k = 0 := Nat.lt_one_iff.mp hk
    exact hnil

/-- A part that looks at one byte and goes on with the rest. -/
theorem rejects_cons (hnil : T [] = .error .truncated) (hcons : ∀ l, T (b :: l) = T' l) (h : Rejects T' bs) :
    Rejects T (b :: bs) where
  whole rest := (hcons _).trans (h.whole rest)
  front k hk := by
    cases k with
    | zero => exact hnil
    | succ k => exact (hcons _).trans (h.front k (Nat.lt_of_succ_lt_succ hk))

end

/-- The bytes after the prefixes that R210 and R196 make invalid. -/
inductive InvalidCode : List Byte → Prop
  | group00 {m : Byte} (h : field m 3 3 = 6 ∨ field m 3 3 = 7) : InvalidCode [0x0F, 0x00, m]
  | group01 {m : Byte} (h : field m 3 3 = 5 ∨ (field m 3 3 = 7 ∧ field m 6 2 = 3)) : InvalidCode [0x0F, 0x01, m]
  | fromTr : InvalidCode [0x0F, 0x25]
  | toTr : InvalidCode [0x0F, 0x27]

theorem decodeGroup00_invalid {p : List Prefix} {a : OpSize} {m : Byte} (h : field m 3 3 = 6 ∨ field m 3 3 = 7) (l : List Byte) :
    decodeGroup00 p a (m :: l) = .error .invalidOpcode := by
  rw [decodeGroup00_cons]
  obtain h | h := h
  · rw [h]; rfl
  · rw [h]; rfl

theorem decodeGroup01_invalid {p : List Prefix} {a : OpSize} {m : Byte}
    (h : field m 3 3 = 5 ∨ (field m 3 3 = 7 ∧ field m 6 2 = 3)) (l : List Byte) :
    decodeGroup01 p a (m :: l) = .error .invalidOpcode := by
  rw [decodeGroup01_cons]
  obtain h | ⟨hreg, hmod⟩ := h
  · rw [h]; rfl
  · rw [hreg, hmod]; rfl

namespace InvalidCode

variable {op : List Byte} (h : InvalidCode op)
include h

theorem eq_cons : ∃ l, op = 0x0F :: l := by
  cases h <;> exact ⟨_, rfl⟩

theorem rejects_decodeBody (p : List Prefix) (z a : OpSize) : Rejects (decodeBody p z a) op := by
  have after0F : ∀ {bs}, Rejects (decodeTwoByte p a) bs → Rejects (decodeBody p z a) (0x0F :: bs) := rejects_cons rfl fun _ => rfl
  cases h with
  | group00 hm =>
    exact after0F (rejects_cons (T' := decodeGroup00 p a) rfl (fun _ => rfl) (rejects_byte rfl (decodeGroup00_invalid hm)))
  | group01 hm =>
    exact after0F (rejects_cons (T' := decodeGroup01 p a) rfl (fun _ => rfl) (rejects_byte rfl (decodeGroup01_invalid hm)))
  | fromTr => exact after0F (rejects_byte rfl fun _ => rfl)
  | toTr => exact after0F (rejects_byte rfl fun _ => rfl)

/-- Its first byte is 0F, none of R191's, so that the prefixes before it end where it begins. -/
theorem splitPrefixes_before (p : List Prefix) (rest : List Byte) :
    splitPrefixes (p.map Prefix.byte ++ (op ++ rest)) = (p, op ++ rest) := by
  obtain ⟨l, rfl⟩ := h.eq_cons
  exact splitPrefixes_append p (splitPrefixes_of_none rfl _)

/-- Such an encoding after any prefixes is invalid, and asks for more bytes while it is incomplete. -/
theorem rejects_decode (d : OpSize) (p : List Prefix) : Rejects (decode d) (p.map Prefix.byte ++ op) where
  whole rest := by
    rw [List.append_assoc]
    exact decode_of_error (h.splitPrefixes_before p rest) ((h.rejects_decodeBody _ _ _).whole rest)
  front k hk := by
    rw [List.length_append, List.length_map] at hk
    rw [List.take_append, ← List.map_take, List.length_map]
    by_cases hkp : k ≤ p.length
    · rw [Nat.sub_eq_zero_of_le hkp, List.take_zero]
      exact decode_of_error (splitPrefixes_append _ rfl) rfl
    · obtain ⟨l, rfl⟩ := h.eq_cons
      obtain ⟨n, hn⟩ : ∃ n, k - p.length = n + 1 := ⟨k - p.length - 1, by omega⟩
      rw [hn, List.take_of_length_le (by omega)]
      exact decode_of_error (splitPrefixes_append p (splitPrefixes_of_none rfl _))
        ((h.rejects_decodeBody _ _ _).front (n + 1) (by omega))

end InvalidCode

end Sys2Proof

namespace Sys2Proof.Machine

/-! ### The fetch of bytes that stand in memory, with paging off -/

section
variable {s : State} {bs : List Byte} (hflat : s.paging = false) (hlimit : s.codeInLimit bs.length = true)
  (hdevice : s.deviceAt (addrsFrom s.fetchAddr bs.length) = false) (hbytes : s.bytesAt (addrsFrom s.fetchAddr bs.length) = bs)
include hflat hlimit hdevice hbytes

theorem fetchBytes_front {n : Nat} (hn : n ≤ bs.length) : fetchBytes n s = .ok (bs.take n, s) := by
  rw [fetchBytes_flat hflat (codeInLimit_mono hn hlimit) (deviceAt_addrsFrom_mono hn hdevice), bytesAt_addrsFrom_take s _ hn, hbytes]

/-- The fetch goes on while what it has read is truncated. -/
theorem fetchFrom_fronts (hfront : ∀ n < bs.length, decode s.codeSize (bs.take n) = .error .truncated) (more k n : Nat)
    (hk : n + k = bs.length) : fetchFrom (more + k) n s = fetchFrom more bs.length s := by
  induction k generalizing n with
  | zero => rw [← hk]; rfl
  | succ k ih =>
    rw [← Nat.add_assoc, fetchFrom_of_truncated (fetchBytes_front hflat hlimit hdevice hbytes (by omega)) (hfront n (by omega)),
      ih (n + 1) (by omega)]

theorem fetchInstr_of_rejects (hpos : 0 < bs.length) (h : Rejects (decode s.codeSize) bs) : fetchInstr s = .error (.exc .ud) := by
  have hread : fetchBytes bs.length s = .ok (bs, s) := by
    rw [fetchBytes_front hflat hlimit hdevice hbytes le_rfl, List.take_length]
  have hdecode : decode s.codeSize bs = .error .invalidOpcode := by
    have := h.whole []
    rwa [List.append_nil] at this
  obtain ⟨more, hmore⟩ : ∃ more, 0x100000000 = more + (bs.length - 1) :=
    Nat.exists_eq_add_of_le' (by have := codeInLimit_le hlimit; omega)
  unfold fetchInstr
  rw [hmore, fetchFrom_fronts hflat hlimit hdevice hbytes h.front more _ 1 (by omega)]
  cases more <;> simp only [fetchFrom, hread, hdecode, State.decodeStop]

end

/-- The next instruction, where no instruction breakpoint is met and the fetch ends in an exception. -/
theorem runNext_of_fetch_exc {s : State} {e : Exn} (hhits : s.instrHits = 0)
    (hfetch : fetchInstr s.afterInstrHits = .error (.exc e)) : runNext s = takeException e s.afterInstrHits := by
  unfold runNext
  rw [if_neg (by simp [hhits]), exec_run, hfetch]
  rfl

theorem step_of_fetch_exc {s : State} {e : Exn} (hcalm : s.calm) (hfetch : fetchInstr s.beginNext.afterInstrHits = .error (.exc e)) :
    step s = ticked (takeException e s.beginNext.afterInstrHits) := by
  obtain ⟨-, -, -, -, -, -, hhits⟩ := id hcalm
  rw [step_of_calm hcalm, runNext_of_fetch_exc hhits hfetch]

/-- Settles O5: an invalid encoding is rejected when it is complete and truncated before, so that the fetch reads it to its end. -/
theorem invalidEncodings : Obligations.InvalidEncodings := by
  refine ⟨fun d m rest hm => ((InvalidCode.group00 hm).rejects_decode d []).whole rest,
    fun d m rest hm => ((InvalidCode.group01 hm).rejects_decode d []).whole rest,
    fun d rest => ⟨(InvalidCode.fromTr.rejects_decode d []).whole rest, (InvalidCode.toTr.rejects_decode d []).whole rest⟩,
    fun _ => rfl, fun s p m op hop hflat hlimit hdevice hbytes => ?_, fun s e hcalm hfetch => step_of_fetch_exc hcalm hfetch⟩
  have hcode : InvalidCode op := by
    obtain ⟨rfl, hm⟩ | ⟨rfl, hm⟩ | rfl | rfl := hop
    · exact .group00 hm
    · exact .group01 hm
    · exact .fromTr
    · exact .toTr
  have hpos : 0 < (p.map Prefix.byte ++ op).length := by
    obtain ⟨l, rfl⟩ := hcode.eq_cons
    simp
  exact fetchInstr_of_rejects hflat hlimit hdevice hbytes hpos (hcode.rejects_decode s.codeSize p)

end Sys2Proof.Machine
end

section
/-! PROOFS. A LOCK byte (30_encoding.md R193), and the forms that raise #UD or #NM (R210; 60_exceptions.md R324, R325). -/

namespace Sys2Proof.Machine

/-! ### LOCK -/

section
variable {s : State}

theorem runInstr_lock {i : Instr} {body : Exec Unit} (h : Prefix.lock ∈ i.prefixes) : runInstr i body s = takeException .ud s := by
  unfold runInstr
  rw [exec_run, exec_bind_of_error (checkPrefixes_lock h s)]
  rfl

theorem runTransfer_lock {i : Instr} {body : Exec Unit} (h : Prefix.lock ∈ i.prefixes) :
    runTransfer i body s = takeException .ud s := by
  unfold runTransfer
  rw [exec_run, exec_bind_of_error (checkPrefixes_lock h s)]
  rfl

theorem execInt3_lock {p : List Prefix} (h : Prefix.lock ∈ p) : execInt3 p s = takeException .ud s := by
  unfold execInt3
  rw [exec_run, checkPrefixes_lock h s]
  rfl

theorem execWait_lock {p : List Prefix} (h : Prefix.lock ∈ p) : execWait p s = takeException .ud s := by
  unfold execWait
  rw [exec_run, exec_bind_of_error (checkPrefixes_lock h s)]
  rfl

theorem execEsc_lock {p : List Prefix} (h : Prefix.lock ∈ p) (x g : BitVec 3) (o : RmOp) :
    execEsc p x g o s = takeException .ud s := by
  unfold execEsc
  rw [exec_run, exec_bind_of_error (checkPrefixes_lock h s)]
  rfl

end

/-- Settles O33: every instruction checks its prefixes before anything else. -/
theorem lockRaisesUd : Obligations.LockRaisesUd := by
  intro i s h
  cases i with
  | int3 p => exact execInt3_lock h
  | wait p => exact execWait_lock h
  | esc p x g o => exact execEsc_lock h x g o
  | callPtr p t | callMem p o | iret p => exact runTransfer_lock h
  | _ => exact runInstr_lock h

/-! ### The conditions of the forms -/

theorem isRegister_iff {o : RmOp} : isRegister o = true ↔ ∃ r, o = .reg r := by
  cases o <;> simp [isRegister]

theorem not_prot_iff {s : State} : (!s.prot) = true ↔ s.pe = false ∨ s.vm = true := by
  unfold State.prot
  cases s.pe <;> simp

theorem not_hasCr_iff {s : State} {n : BitVec 3} :
    (!s.hasCr n) = true ↔ n ∈ [1, 5, 6, 7] ∨ (n = 4 ∧ s.part.features.cr4 = false) := by
  unfold State.hasCr
  cases s.part.features.cr4 <;> revert n <;> decide

theorem noDebugReg_iff {s : State} {n : BitVec 3} :
    s.noDebugReg n = true ↔ (n = 4 ∨ n = 5) ∧ bit s.cr4 3 = true ∧ s.part.features.de = true := by
  simp only [State.noDebugReg, State.de, Bool.and_eq_true, Bool.or_eq_true, beq_iff_eq]

/-! ### What the checks of the forms raise -/

section
variable {s : State}

theorem raiseIf_raises {c : Bool} {e : Exn} (h : c = true) : raiseIf c e s = .error (.exc e) := by
  rw [h, exec_raiseIf_true]

theorem requireProtected_raises (h : (!s.prot) = true) : requireProtected s = .error (.exc .ud) :=
  (exec_bind_of_ok (exec_get s)).trans (raiseIf_raises h)

theorem checkDebugAccess_raises {n : BitVec 3} (h : s.noDebugReg n = true) : checkDebugAccess n s = .error (.exc .ud) :=
  (exec_bind_of_ok (exec_get s)).trans (exec_bind_of_error (raiseIf_raises h))

theorem requireMsrAccess_raises {present : Bool} (h : (!present) = true) : requireMsrAccess present s = .error (.exc .ud) :=
  (exec_bind_of_ok (exec_get s)).trans (exec_bind_of_error (raiseIf_raises h))

/-- A form that is not there raises #UD before its instruction does anything (60 R324). -/
theorem exec_of_invalidForm {i : Instr} (hp : Plain i.prefixes) (h : s.invalidForm i = true) : exec i s = takeException .ud s := by
  cases i with
  | sgdt p o | sidt p o | lgdt p o | lidt p o => exact runInstr_raises hp (exec_bind_of_error (raiseIf_raises h))
  | callMem p o => exact runTransfer_raises hp (exec_bind_of_error (raiseIf_raises h))
  | sldt p o | str p o | lldt p o | ltr p o => exact runInstr_raises hp (exec_bind_of_error (requireProtected_raises h))
  | movFromCr p m n r | movToCr p m n r => exact runInstr_raises hp (exec_bind_of_error (raiseIf_raises h))
  | movFromDr p m n r | movToDr p m n r => exact runInstr_raises hp (exec_bind_of_error (checkDebugAccess_raises h))
  | wrmsr p | rdmsr p => exact runInstr_raises hp (exec_bind_of_error (requireMsrAccess_raises h))
  | rdtsc p | rdpmc p | cpuid p => exact runInstr_raises hp (exec_bind_of_error (raiseIf_raises h))
  | _ => exact absurd h Bool.false_ne_true

end

/-! ### Which forms these are -/

/-- The instruction is one of the forms that are not there, as 30_encoding.md R210, 40 R221, 41 R244, 42 R262 and 60 R324 list them. -/
def State.listedInvalid (s : State) (i : Instr) : Prop :=
  (∃ p r, i = .sgdt p (.reg r) ∨ i = .sidt p (.reg r) ∨ i = .lgdt p (.reg r) ∨ i = .lidt p (.reg r) ∨ i = .callMem p (.reg r))
    ∨ ((s.pe = false ∨ s.vm = true) ∧ ∃ p o, i = .sldt p o ∨ i = .str p o ∨ i = .lldt p o ∨ i = .ltr p o)
    ∨ (∃ p m n r, (i = .movFromCr p m n r ∨ i = .movToCr p m n r)
      ∧ (n ∈ [1, 5, 6, 7] ∨ (n = 4 ∧ s.part.features.cr4 = false)))
    ∨ (∃ p m n r, (i = .movFromDr p m n r ∨ i = .movToDr p m n r)
      ∧ (n = 4 ∨ n = 5) ∧ bit s.cr4 3 = true ∧ s.part.features.de = true)
    ∨ ∃ p, (i = .rdmsr p ∧ s.part.features.rdmsr = false) ∨ (i = .wrmsr p ∧ s.part.features.wrmsr = false)
      ∨ (i = .rdtsc p ∧ s.part.features.rdtsc = false) ∨ (i = .rdpmc p ∧ s.part.features.rdpmc = false)
      ∨ (i = .cpuid p ∧ s.part.features.cpuid = false)

theorem listedInvalid_of_invalidForm {s : State} {i : Instr} (h : s.invalidForm i = true) : s.listedInvalid i := by
  unfold State.listedInvalid
  cases i with
  | sgdt p o | sidt p o | lgdt p o | lidt p o | callMem p o =>
    obtain ⟨r, rfl⟩ := isRegister_iff.mp h
    exact .inl ⟨p, r, by simp⟩
  | sldt p o | str p o | lldt p o | ltr p o => exact .inr (.inl ⟨not_prot_iff.mp h, p, o, by simp⟩)
  | movFromCr p m n r | movToCr p m n r => exact .inr (.inr (.inl ⟨p, m, n, r, by simp, not_hasCr_iff.mp h⟩))
  | movFromDr p m n r | movToDr p m n r => exact .inr (.inr (.inr (.inl ⟨p, m, n, r, by simp, noDebugReg_iff.mp h⟩)))
  | rdmsr p | wrmsr p | rdtsc p | rdpmc p | cpuid p =>
    have hpart := (Bool.not_eq_true' _).mp h
    exact .inr (.inr (.inr (.inr ⟨p, by simp [hpart]⟩)))
  | _ => exact absurd h Bool.false_ne_true

theorem invalidForm_of_listedInvalid {s : State} {i : Instr} (h : s.listedInvalid i) : s.invalidForm i = true := by
  obtain ⟨p, r, hi⟩ | ⟨hmode, p, o, hi⟩ | ⟨p, m, n, r, hi, hn⟩ | ⟨p, m, n, r, hi, hn⟩ | ⟨p, hi⟩ := h
  · obtain rfl | rfl | rfl | rfl | rfl := hi <;> rfl
  · obtain rfl | rfl | rfl | rfl := hi <;> exact not_prot_iff.mpr hmode
  · obtain rfl | rfl := hi <;> exact not_hasCr_iff.mpr hn
  · obtain rfl | rfl := hi <;> exact noDebugReg_iff.mpr hn
  · obtain ⟨rfl, hpart⟩ | ⟨rfl, hpart⟩ | ⟨rfl, hpart⟩ | ⟨rfl, hpart⟩ | ⟨rfl, hpart⟩ := hi
      <;> exact (Bool.not_eq_true' _).mpr hpart

theorem unavailable_iff {s : State} {i : Instr} : s.unavailable i = true ↔
    (∃ p, i = .wait p ∧ bit s.cr0 1 = true ∧ bit s.cr0 3 = true)
      ∨ ∃ p m n o, i = .esc p m n o ∧ (bit s.cr0 2 = true ∨ bit s.cr0 3 = true) := by
  constructor
  · intro h
    cases i with
    | wait p => exact .inl ⟨p, rfl, Bool.and_eq_true_iff.mp h⟩
    | esc p x g o => exact .inr ⟨p, x, g, o, rfl, Bool.or_eq_true_iff.mp h⟩
    | _ => exact absurd h Bool.false_ne_true
  · rintro (⟨p, rfl, hbits⟩ | ⟨p, x, g, o, rfl, hbits⟩)
    · exact Bool.and_eq_true_iff.mpr hbits
    · exact Bool.or_eq_true_iff.mpr hbits

/-- Settles O32: the forms of the first three clauses are invalid forms, and an instruction of an invalid form raises #UD. -/
theorem illegalForms : Obligations.IllegalForms := by
  refine ⟨fun p r s hp => ?_, fun p o s hp hmode => ?_, fun p m r s hp => ?_, fun i s hp h => exec_of_invalidForm hp h,
    fun i s => ⟨listedInvalid_of_invalidForm, invalidForm_of_listedInvalid⟩, fun i s => unavailable_iff⟩
  · exact ⟨exec_of_invalidForm hp rfl, exec_of_invalidForm hp rfl, exec_of_invalidForm hp rfl, exec_of_invalidForm hp rfl,
      exec_of_invalidForm hp rfl⟩
  · have hform : (!s.prot) = true := not_prot_iff.mpr hmode
    exact ⟨exec_of_invalidForm hp hform, exec_of_invalidForm hp hform, exec_of_invalidForm hp hform, exec_of_invalidForm hp hform⟩
  · have absent {c : Bool} (hpart : c = false) : (!c) = true := (Bool.not_eq_true' c).mpr hpart
    have hcr4 (hpart : s.part.features.cr4 = false) : (!s.hasCr 4) = true := not_hasCr_iff.mpr (.inr ⟨rfl, hpart⟩)
    exact ⟨fun h => exec_of_invalidForm hp (absent h), fun h => exec_of_invalidForm hp (absent h),
      fun h => exec_of_invalidForm hp (absent h), fun h => exec_of_invalidForm hp (absent h),
      fun h => exec_of_invalidForm hp (absent h), fun h => ⟨exec_of_invalidForm hp (hcr4 h), exec_of_invalidForm hp (hcr4 h)⟩⟩

end Sys2Proof.Machine
end

section
/-! PROOFS. What an access to an operand in memory leaves (20_memory.md R130, R160): canonical memory, marked page entries, and physical
addresses with the page offsets of the linear ones, so that no two bytes of an operand have one address. -/

namespace Sys2Proof.Machine

/-! ### Canonical memory -/

/-- Memory that is canonical in `s` is canonical in `t`. -/
def StaysCanonical (s t : State) : Prop := Memory.wf s.mem = true → Memory.wf t.mem = true

theorem staysCanonical_operandClosed : OperandClosed StaysCanonical where
  frame := ⟨fun _ => id, fun _ _ _ h1 h2 => h2 ∘ h1⟩
  store _ pas vs := storeBytes_wf pas vs
  tlb _ _ _ := id
  draws _ _ := id
  pending _ _ := id

theorem marked_operandBytes {r : SegReg} {w : Bool} {off : Word32} {n : Nat} {s t : State} {pas : List Word32}
    (hwf : Memory.wf s.mem = true) (h : operandBytes r w off n s = .ok (pas, t)) :
    Marked s t (s.entriesOf (addrsFrom (s.linear r off) n)) := by
  obtain ⟨-, -, hrest, hbytes, hbits⟩ := accessed_operandBytes hwf h
  exact ⟨hrest, keeps_operandBytes staysCanonical_operandClosed r w off n s pas t h hwf, hbytes, hbits⟩

/-! ### Page offsets -/

/-- The offset of an address in its page of 4 KB (20_memory.md R162). -/
def pageOffset (a : Word32) : BitVec 12 := field a 0 12

theorem pageOffset_eq_setWidth (a : Word32) : pageOffset a = a.setWidth 12 := by
  refine BitVec.eq_of_getLsbD_eq fun j hj => ?_
  rw [pageOffset, getLsbD_field, BitVec.getLsbD_setWidth, Nat.zero_add]

theorem pageOffset_add (a b : Word32) : pageOffset (a + b) = pageOffset a + pageOffset b := by
  simp only [pageOffset_eq_setWidth, BitVec.setWidth_add _ _ (show 12 ≤ 32 by decide)]

theorem pageOffset_inPage (phys : BitVec 20) (lin : Word32) : pageOffset (inPage phys lin) = pageOffset lin :=
  field_append_low phys (field lin 0 12)

/-- An offset modulo 2^16 has the page offset that it has modulo 2^32. -/
theorem pageOffset_zext32_low16 (a : Word32) : pageOffset (zext32 (low16 a)) = pageOffset a := by
  simp only [pageOffset_eq_setWidth, zext32, low16, BitVec.setWidth_setWidth_of_le _ (show 12 ≤ 32 by decide),
    BitVec.setWidth_setWidth_of_le _ (show 12 ≤ 16 by decide)]

/-- A translation replaces the page and keeps the offset in it (20_memory.md R160, R163). -/
theorem pageOffset_translate {acc : Access} {lin pa : Word32} {s t : State} (h : translate acc lin s = .ok (pa, t)) :
    pageOffset pa = pageOffset lin := by
  unfold translate at h
  obtain ⟨_, _, hget, h⟩ := exec_bind_ok h
  cases hget
  cases hpaging : s.paging with
  | false =>
    simp only [hpaging, Bool.not_false, if_true] at h
    cases h
    rfl
  | true =>
    simp only [hpaging, Bool.not_true, Bool.false_eq_true, if_false] at h
    match hhits : s.tlbHits (field lin 12 20) with
    | [] =>
      rw [hhits] at h
      obtain ⟨_, _, -, h⟩ := exec_bind_ok h
      obtain ⟨_, _, -, h⟩ := exec_bind_ok h
      cases h
      exact pageOffset_inPage _ lin
    | [b] =>
      rw [hhits] at h
      obtain ⟨_, _, -, h⟩ := exec_bind_ok h
      split at h
      · obtain ⟨_, _, -, h⟩ := exec_bind_ok h
        obtain ⟨_, _, -, h⟩ := exec_bind_ok h
        cases h
        exact pageOffset_inPage _ lin
      · cases h
        exact pageOffset_inPage _ lin
    | _ :: _ :: _ =>
      rw [hhits] at h
      cases h

theorem pageOffset_nextByte {acc : Access} {prev : Option Word32} {lin pa : Word32} {s t : State}
    (hprev : ∀ q, prev = some q → pageOffset (q + 1) = pageOffset lin) (h : nextByte acc prev lin s = .ok (pa, t)) :
    pageOffset pa = pageOffset lin := by
  cases prev with
  | none => exact pageOffset_translate h
  | some q =>
    unfold nextByte at h
    dsimp only at h
    split at h
    · exact pageOffset_translate h
    · cases h
      exact hprev q rfl

theorem pageOffset_translateFrom {acc : Access} {n : Nat} {prev : Option Word32} {lin : Word32} {pas : List Word32} {s t : State}
    (hprev : ∀ q, prev = some q → pageOffset (q + 1) = pageOffset lin) (h : translateFrom acc n prev lin s = .ok (pas, t)) :
    pas.map pageOffset = (addrsFrom lin n).map pageOffset := by
  induction n generalizing s prev lin pas with
  | zero =>
    cases h
    rfl
  | succ n ih =>
    obtain ⟨pa, _, hbyte, h⟩ := exec_bind_ok h
    obtain ⟨qas, _, hfrom, h⟩ := exec_bind_ok h
    cases h
    have hfirst := pageOffset_nextByte hprev hbyte
    have hnext : ∀ q, some pa = some q → pageOffset (q + 1) = pageOffset (lin + 1) := by
      rintro q ⟨⟩
      rw [pageOffset_add, pageOffset_add, hfirst]
    rw [addrsFrom, List.map_cons, List.map_cons, hfirst, ih hnext hfrom]

theorem pageOffset_translateRange {acc : Access} {lin : Word32} {n : Nat} {pas : List Word32} {s t : State}
    (h : translateRange acc lin n s = .ok (pas, t)) : pas.map pageOffset = (addrsFrom lin n).map pageOffset := by
  unfold translateRange at h
  obtain ⟨_, _, hfrom, h⟩ := exec_bind_ok h
  obtain ⟨_, _, -, h⟩ := exec_bind_ok h
  obtain ⟨_, _, -, h⟩ := exec_bind_ok h
  cases h
  exact pageOffset_translateFrom (prev := none) nofun hfrom

theorem pageOffset_operandBytes {r : SegReg} {w : Bool} {off : Word32} {n : Nat} {s t : State} {pas : List Word32}
    (h : operandBytes r w off n s = .ok (pas, t)) : pas.map pageOffset = (addrsFrom (s.linear r off) n).map pageOffset := by
  obtain ⟨-, _, hrange, -⟩ := operandBytes_ok h
  exact pageOffset_translateRange hrange

/-! ### Different addresses -/

theorem addrsFrom_eq_map (a : Word32) (n : Nat) : addrsFrom a n = (List.range n).map fun k => a + BitVec.ofNat 32 k := by
  induction n with
  | zero => rfl
  | succ n ih => rw [addrsFrom_append, ih, List.range_succ, List.map_append]; rfl

/-- No more bytes than a page holds have different page offsets, also where they go on in another page. -/
theorem nodup_pageOffsets (a : Word32) {n : Nat} (hn : n ≤ 4096) : ((addrsFrom a n).map pageOffset).Nodup := by
  rw [addrsFrom_eq_map, List.map_map]
  refine List.Nodup.map_on (fun i hi j hj h => ?_) List.nodup_range
  rw [Function.comp_apply, Function.comp_apply, pageOffset_add, pageOffset_add, BitVec.add_right_inj, pageOffset_eq_setWidth,
    pageOffset_eq_setWidth] at h
  have hnum := congrArg BitVec.toNat h
  simp only [BitVec.toNat_setWidth, BitVec.toNat_ofNat] at hnum
  rw [List.mem_range] at hi hj
  omega

theorem nodup_operandBytes {r : SegReg} {w : Bool} {off : Word32} {n : Nat} {s t : State} {pas : List Word32} (hn : n ≤ 4096)
    (h : operandBytes r w off n s = .ok (pas, t)) : pas.Nodup :=
  .of_map pageOffset (pageOffset_operandBytes h ▸ nodup_pageOffsets _ hn)

/-! ### Paging off -/

theorem translateRange_flat_ok {s t : State} (hflat : s.paging = false) {acc : Access} {lin : Word32} {n : Nat} {pas : List Word32}
    (h : translateRange acc lin n s = .ok (pas, t)) : s.deviceAt (addrsFrom lin n) = false ∧ pas = addrsFrom lin n ∧ t = s := by
  cases hdev : s.deviceAt (addrsFrom lin n) with
  | true =>
    rw [translateRange_device hflat acc hdev] at h
    cases h
  | false =>
    rw [translateRange_flat hflat acc hdev] at h
    cases h
    exact ⟨rfl, rfl, rfl⟩

theorem operandBytes_flat_ok {s t : State} (hflat : s.paging = false) {r : SegReg} {w : Bool} {off : Word32} {n : Nat}
    {pas : List Word32} (h : operandBytes r w off n s = .ok (pas, t)) :
    s.segAllows r w off n = true ∧ s.deviceAt (addrsFrom (s.linear r off) n) = false ∧ pas = addrsFrom (s.linear r off) n
      ∧ t = s.noted (.data w (s.linear r off) n) := by
  obtain ⟨hallow, u, hrange, rfl⟩ := operandBytes_ok h
  obtain ⟨hdev, hpas, rfl⟩ := translateRange_flat_ok hflat hrange
  exact ⟨hallow, hdev, hpas, rfl⟩

theorem readDescriptor_flat_ok {s t : State} (hflat : s.paging = false) {sel : Word16} {bad : Exn} {d : SegCache}
    (h : readDescriptor sel bad s = .ok (d, t)) : t = s := by
  unfold readDescriptor sysRead memRead at h
  obtain ⟨_, _, hget, h⟩ := exec_bind_ok h
  cases hget
  obtain ⟨_, _, hin, h⟩ := exec_bind_ok h
  obtain ⟨-, rfl⟩ := raiseIf_ok hin
  obtain ⟨_, _, hread, h⟩ := exec_bind_ok h
  cases h
  obtain ⟨_, _, hrange, hread⟩ := exec_bind_ok hread
  cases hread
  exact (translateRange_flat_ok hflat hrange).2.2

end Sys2Proof.Machine
end

section
/-! PROOFS. The instructions that store a descriptor-table register or a word (40_descriptor_table_instructions.md R222, R225, R227,
R229; 41 R248). -/

namespace Sys2Proof.Machine

/-! ### What follows from kept registers -/

section
variable {s t : State} (h : RegistersKept s t)
include h

/-- The end of an instruction whose accesses have left the registers as they were. -/
theorem RegistersKept.advance (i : Instr) : s.advance t i = t.completed i := by
  unfold RegistersKept at h
  have hend : s.advance t i = { t with
      eip := s.eipPlus i.length, eflags := clearRf t.eflags, pending := { t.pending with singleStep := s.tf } } :=
    advance_eq i (by rw [h]) (by rw [h]; rfl) (by rw [h])
  have heip : t.eipPlus i.length = s.eipPlus i.length := by rw [h]; rfl
  have htf : t.tf = s.tf := by rw [h]; rfl
  rw [hend, State.completed, heip, htf]

theorem RegistersKept.operandSize (p : List Prefix) : t.operandSize p = s.operandSize p := by
  unfold RegistersKept at h
  rw [h]
  rfl

theorem RegistersKept.linear (r : SegReg) (off : Word32) : t.linear r off = s.linear r off := by
  unfold RegistersKept at h
  rw [h]
  rfl

theorem RegistersKept.ram (pas : List Word32) : t.ram pas = s.ram pas := by
  unfold RegistersKept at h
  rw [h]
  rfl

end

/-! ### The six bytes of a table register -/

theorem entriesOf_append (s : State) (as bs : List Word32) : s.entriesOf (as ++ bs) = s.entriesOf as ++ s.entriesOf bs := by
  unfold State.entriesOf
  split
  · exact List.flatMap_append
  · rfl

theorem pageOffset_secondOffset (s : State) (o : RmOp) : pageOffset (secondOffset o (s.offset o)) = pageOffset (s.offset o + 2) := by
  cases o with
  | reg r | mem32 a => rfl
  | mem16 a => exact pageOffset_zext32_low16 _

/-- The two parts of the operand go on from each other inside a page, also where the second wraps (40 R220). -/
theorem pageOffset_tableAddrs (s : State) (p : List Prefix) (o : RmOp) :
    (s.tableAddrs p o).map pageOffset = (addrsFrom (s.operandAddr p o) 6).map pageOffset := by
  have hsecond : (addrsFrom (s.linear (operandSegment p o) (secondOffset o (s.offset o))) 4).map pageOffset
      = (addrsFrom (s.operandAddr p o + 2) 4).map pageOffset := by
    simp only [addrsFrom_eq_map, List.map_map]
    refine List.map_congr_left fun k _ => ?_
    simp only [Function.comp_apply, pageOffset_add, State.linear, State.operandAddr, pageOffset_secondOffset, BitVec.add_assoc]
  rw [State.tableAddrs, List.map_append, hsecond, ← List.map_append]
  exact congrArg (List.map pageOffset) (addrsFrom_append (s.operandAddr p o) 2 4).symm

/-- The bytes of a table image are two accesses, the second in the state that the first leaves (40 R222). -/
theorem imageBytes_ok {p : List Prefix} {o : RmOp} {w : Bool} {s t : State} {pas : List Word32}
    (h : imageBytes p o w s = .ok (pas, t)) :
    ∃ lo u hi, operandBytes (operandSegment p o) w (s.offset o) 2 s = .ok (lo, u)
      ∧ operandBytes (operandSegment p o) w (secondOffset o (s.offset o)) 4 u = .ok (hi, t) ∧ pas = lo ++ hi := by
  unfold imageBytes at h
  obtain ⟨_, _, hget, h⟩ := exec_bind_ok h
  cases hget
  obtain ⟨lo, u, hlo, h⟩ := exec_bind_ok h
  obtain ⟨hi, v, hhi, h⟩ := exec_bind_ok h
  obtain ⟨_, _, halign, h⟩ := exec_bind_ok h
  rw [checkAlignment_eq] at halign
  split at halign
  · cases halign
  · cases halign
    cases h
    exact ⟨lo, u, hi, hlo, hhi, rfl⟩

section
variable {p : List Prefix} {o : RmOp} {w : Bool} {s t : State} {pas : List Word32} (h : imageBytes p o w s = .ok (pas, t))
include h

theorem registersKept_imageBytes : RegistersKept s t := keeps_imageBytes registersKept_operandClosed p o w s pas t h

theorem marked_imageBytes (hwf : Memory.wf s.mem = true) : Marked s t (s.entriesOf (s.tableAddrs p o)) := by
  obtain ⟨lo, u, hi, hlo, hhi, -⟩ := imageBytes_ok h
  have hfirst := marked_operandBytes hwf hlo
  have hsecond := marked_operandBytes hfirst.wf hhi
  have hkept : RegistersKept s u := hfirst.rest
  rw [hfirst.entriesOf fun a => entriesOf_aligned, hkept.linear] at hsecond
  rw [State.tableAddrs, entriesOf_append]
  exact hfirst.trans hsecond

/-- The six bytes have six addresses, whatever pages they are in. -/
theorem nodup_imageBytes : pas.Nodup ∧ pas.length = 6 := by
  obtain ⟨lo, u, hi, hlo, hhi, rfl⟩ := imageBytes_ok h
  have hkept : RegistersKept s u := keeps_operandBytes registersKept_operandClosed _ _ _ _ _ _ _ hlo
  have hoffsets : (lo ++ hi).map pageOffset = (addrsFrom (s.operandAddr p o) 6).map pageOffset := by
    rw [List.map_append, pageOffset_operandBytes hlo, pageOffset_operandBytes hhi, hkept.linear, ← List.map_append,
      ← pageOffset_tableAddrs]
    rfl
  exact ⟨.of_map pageOffset (hoffsets ▸ nodup_pageOffsets _ (by decide)), by simpa [addrsFrom] using congrArg List.length hoffsets⟩

end

/-! ### SGDT and SIDT (R222, R225) -/

theorem tableImage_eq (z : OpSize) (k : Nat) (g : TableReg) : ∃ b : Byte, (z = .s32 → b = field g.base 24 8)
    ∧ tableImage z k g = bytes16 g.limit ++ [field g.base 0 8, field g.base 8 8, field g.base 16 8, b] := by
  cases z with
  | s16 => exact ⟨Config.storedTopByte k, nofun, rfl⟩
  | s32 => exact ⟨field g.base 24 8, fun _ => rfl, rfl⟩

/-- The state after the image of `g` is stored at `pas`, with a free value drawn for its sixth byte (U2). -/
def State.withTable (t : State) (z : OpSize) (pas : List Word32) (g : TableReg) : State :=
  ({ t with draws := t.draws + 1 } : State).storeBytes pas (tableImage z t.draws g)

theorem withTable_eq (t : State) (z : OpSize) (pas : List Word32) (g : TableReg) :
    t.withTable z pas g = { t with mem := (t.withTable z pas g).mem, draws := (t.withTable z pas g).draws } := by
  rw [State.withTable, storeBytes_eq]

theorem registersKept_withTable (t : State) (z : OpSize) (pas : List Word32) (g : TableReg) : RegistersKept t (t.withTable z pas g) := by
  rw [withTable_eq]
  rfl

theorem requireMemory_ok {o : RmOp} (h : isRegister o = false) (s : State) : requireMemory o s = .ok ((), s) := by
  rw [requireMemory, h, exec_raiseIf_false]

theorem writeTable_ok {p : List Prefix} {o : RmOp} {s t : State} {pas : List Word32} (h : imageBytes p o true s = .ok (pas, t))
    (g : TableReg) : writeTable p o g s = .ok ((), t.withTable (s.operandSize p) pas g) := by
  have hsize : State.operandSize { t with draws := t.draws + 1 } p = s.operandSize p := (registersKept_imageBytes h).operandSize p
  unfold writeTable
  rw [exec_bind_of_ok h, exec_bind_of_ok (exec_draw t), exec_modify, hsize]
  rfl

theorem runInstr_storeTable (i : Instr) {p : List Prefix} {o : RmOp} {s t : State} {pas : List Word32} (hp : Plain i.prefixes)
    (ho : isRegister o = false) (h : imageBytes p o true s = .ok (pas, t)) (g : TableReg) :
    runInstr i (do requireMemory o; writeTable p o g) s = .next ((t.withTable (s.operandSize p) pas g).completed i) := by
  have hkept : RegistersKept s (t.withTable (s.operandSize p) pas g) :=
    registersKept_frame.trans _ _ _ (registersKept_imageBytes h) (registersKept_withTable ..)
  refine runInstr_ok hp ?_ (hkept.advance i)
  rw [exec_bind_of_ok (requireMemory_ok ho s), writeTable_ok h g]

/-- Settles O25: the image is stored at six different addresses, and the accesses before it are those of `imageBytes`. -/
theorem tableStored : Obligations.TableStored := by
  intro p o s t pas i g hi hp ho hwf h
  have hexec : exec i s = .next ((t.withTable (s.operandSize p) pas g).completed i) := by
    obtain ⟨rfl, rfl⟩ | ⟨rfl, rfl⟩ := hi
    · exact runInstr_storeTable (.sgdt p o) hp ho h _
    · exact runInstr_storeTable (.sidt p o) hp ho h _
  have hmarked := marked_imageBytes h hwf
  obtain ⟨hnodup, hlen⟩ := nodup_imageBytes h
  obtain ⟨b, hb, himage⟩ := tableImage_eq (s.operandSize p) t.draws g
  refine ⟨_, b, hexec, congrArg (State.completed · i) (withTable_eq ..), hmarked.accessed, hb, fun hram => ?_, fun a ha => ?_⟩
  · rw [← himage]
    have hlength : pas.length = (tableImage (s.operandSize p) t.draws g).length := by rw [hlen, himage]; rfl
    exact bytesAt_storeBytes hlength hnodup (((registersKept_imageBytes h).ram pas).trans hram) hmarked.wf
  · exact physByte_storeBytes_other _ ha hmarked.wf

/-! ### SLDT, STR and SMSW (R227, R229; 41 R248) -/

/-- `i` stores the word `w` in `o`: SLDT and STR a selector in Protected Mode, SMSW the low half of CR0. -/
def StoresWord (s : State) (p : List Prefix) (o : RmOp) (i : Instr) (w : Word16) : Prop :=
  (i = .sldt p o ∧ s.prot = true ∧ w = s.ldtr.sel) ∨ (i = .str p o ∧ s.prot = true ∧ w = s.tr.sel)
    ∨ (i = .smsw p o ∧ w = field s.cr0 0 16)

theorem requireProtected_ok {s : State} (h : s.prot = true) : requireProtected s = .ok ((), s) := by
  rw [requireProtected, exec_bind_of_ok (exec_get s), h, Bool.not_true, exec_raiseIf_false]

theorem low16_eq_field (v : Word32) : low16 v = field v 0 16 := by
  refine BitVec.eq_of_getLsbD_eq fun j hj => ?_
  rw [low16, getLsbD_field, BitVec.getLsbD_setWidth, Nat.zero_add]

/-- The instruction goes on to the next one as its store leaves it. -/
theorem StoresWord.exec {s t u : State} {p : List Prefix} {o : RmOp} {i : Instr} {w : Word16} (hi : StoresWord s p o i w)
    (hp : Plain p) (h : writeRm16 p w o s = .ok ((), t)) (hend : s.advance t i = u) : exec i s = .next u := by
  obtain ⟨rfl, hprot, rfl⟩ | ⟨rfl, hprot, rfl⟩ | ⟨rfl, rfl⟩ := hi
  · exact runInstr_ok (i := .sldt p o) hp ((exec_bind_of_ok (requireProtected_ok hprot)).trans h) hend
  · exact runInstr_ok (i := .str p o) hp ((exec_bind_of_ok (requireProtected_ok hprot)).trans h) hend
  · rw [← low16_eq_field] at h
    exact runInstr_ok (i := .smsw p o) hp h hend

theorem toBytes_two (w : Word16) : toBytes 2 w.toNat = bytes16 w := by
  have hlow : BitVec.ofNat 8 w.toNat = field w 0 8 := by rw [field, BitVec.extractLsb', Nat.shiftRight_zero]
  have hhigh : BitVec.ofNat 8 (w.toNat / 256) = field w 8 8 := by rw [field, BitVec.extractLsb', Nat.shiftRight_eq_div_pow]
  rw [bytes16, ← hlow, ← hhigh]
  rfl

theorem writeRm16_memory {p : List Prefix} {o : RmOp} {s t : State} {pas : List Word32} (ho : isRegister o = false)
    (h : operandBytes (operandSegment p o) true (s.offset o) 2 s = .ok (pas, t)) (ha : s.misaligned (s.operandAddr p o) 2 = false)
    (w : Word16) : writeRm16 p w o s = .ok ((), t.storeBytes pas (bytes16 w)) := by
  have hstore : lmemWrite (operandSegment p o) (s.offset o) 2 w.toNat s = .ok ((), t.storeBytes pas (bytes16 w)) := by
    rw [lmemWrite_of_operandBytes _ h, ← State.operandAddr, ha, toBytes_two]
    rfl
  cases o with
  | reg r => cases ho
  | mem16 a | mem32 a => exact (exec_bind_of_ok (exec_get s)).trans hstore

/-- Settles O28: the low half of the register is written, and with 32-bit operand size a free value is drawn for the rest. -/
theorem wordStoredInRegister : Obligations.WordStoredInRegister := by
  intro p r s i w hi hp
  have hstores : StoresWord s p (.reg r) i w := hi
  have hwrite : writeRm16 p w (.reg r) s = storeReg16 (s.operandSize p) r w s := exec_bind_of_ok (exec_get s)
  refine ⟨fun hsize => ?_, fun hsize => ⟨Config.upperHalf s.draws, s.draws + 1, ?_⟩⟩
  · rw [hsize] at hwrite
    exact hstores.exec hp hwrite (advance_gprs s _ i)
  · rw [hsize] at hwrite
    exact hstores.exec hp hwrite (advance_eq i rfl rfl rfl)

/-- Settles O29: a memory operand is two bytes at two addresses, whatever the operand size. -/
theorem wordStoredInMemory : Obligations.WordStoredInMemory := by
  intro p o s t pas i w hi hp ho hwf h ha
  have hstores : StoresWord s p o i w := hi
  have hmarked := marked_operandBytes hwf h
  have hkept : RegistersKept s t := hmarked.rest
  have hlen : pas.length = 2 := (accessed_operandBytes hwf h).1
  have hstored : RegistersKept s (t.storeBytes pas (bytes16 w)) :=
    registersKept_frame.trans _ _ _ hkept (registersKept_operandClosed.store ..)
  refine ⟨_, hstores.exec hp (writeRm16_memory ho h ha w) (hstored.advance i), ?_, hmarked.accessed, fun hram => ?_, fun a ha => ?_⟩
  · exact congrArg (State.completed · i) (storeBytes_eq t pas (bytes16 w))
  · exact bytesAt_storeBytes hlen (nodup_operandBytes (by decide) h) ((hkept.ram pas).trans hram) hmarked.wf
  · exact physByte_storeBytes_other _ ha hmarked.wf

end Sys2Proof.Machine
end

section
/-! PROOFS. LGDT and LIDT (40_descriptor_table_instructions.md R220, R223, R224), and that they give back what SGDT and SIDT stored
(R231). -/

namespace Sys2Proof.Machine

/-! ### The register from its six bytes (R220, R223) -/

theorem littleEndian_two (b0 b1 : Byte) : littleEndian [b0, b1] = (word16 b0 b1).toNat := by
  simp only [word16, toNat_append_byte, littleEndian, Nat.mul_zero, Nat.add_zero]

/-- The low word and the double word after it. -/
theorem littleEndian_six (b0 b1 b2 b3 b4 b5 : Byte) :
    littleEndian [b0, b1, b2, b3, b4, b5] = (word16 b0 b1).toNat + 2 ^ 16 * (word32 b2 b3 b4 b5).toNat := by
  have hsplit : littleEndian [b0, b1, b2, b3, b4, b5] = _ := littleEndian_append [b0, b1] [b2, b3, b4, b5]
  have hlen : [b0, b1].length = 2 := rfl
  rw [hsplit, hlen, littleEndian_two, littleEndian_four]
  norm_num

/-- With 16-bit operand size only three bytes of the base count (R220). -/
theorem word32_and_24_bits (b2 b3 b4 b5 : Byte) : word32 b2 b3 b4 b5 &&& 0x00FFFFFF = word32 b2 b3 b4 0 := by
  have hkeep : ∀ {n : Nat} (x m y : BitVec n) (b : Byte), x &&& m = y → (x ++ b) &&& (m ++ BitVec.allOnes 8) = y ++ b := by
    intro n x m y b hxm
    rw [append_and_append, hxm, BitVec.and_allOnes]
  exact hkeep (b5 ++ b4 ++ b3) 0x00FFFF _ b2 (hkeep (b5 ++ b4) 0x00FF _ b3 (hkeep b5 0 0 b4 BitVec.and_zero))

theorem tableOf_bytes (z : OpSize) (b0 b1 b2 b3 b4 b5 : Byte) : tableOf z (littleEndian [b0, b1, b2, b3, b4, b5])
    = { limit := word16 b0 b1, base := word32 b2 b3 b4 (if z = .s16 then 0 else b5) } := by
  have hlimit : BitVec.ofNat 16 (littleEndian [b0, b1, b2, b3, b4, b5]) = word16 b0 b1 := by
    rw [littleEndian_six]
    have := (word16 b0 b1).isLt
    exact BitVec.eq_of_toNat_eq (by rw [BitVec.toNat_ofNat]; omega)
  have hbase : BitVec.ofNat 32 (littleEndian [b0, b1, b2, b3, b4, b5] / 2 ^ 16) = word32 b2 b3 b4 b5 := by
    rw [littleEndian_six]
    have := (word16 b0 b1).isLt
    have := (word32 b2 b3 b4 b5).isLt
    exact BitVec.eq_of_toNat_eq (by rw [BitVec.toNat_ofNat]; omega)
  unfold tableOf
  rw [hlimit, hbase]
  cases z with
  | s16 => exact congrArg (TableReg.mk · _) (word32_and_24_bits ..)
  | s32 => rfl

/-! ### LGDT and LIDT (R220, R224) -/

theorem readTable_ok {p : List Prefix} {o : RmOp} {s t : State} {pas : List Word32} (h : imageBytes p o false s = .ok (pas, t)) :
    readTable p o s = .ok (tableOf (s.operandSize p) (littleEndian (t.bytesAt pas)), t) := by
  unfold readTable
  rw [exec_bind_of_ok h, exec_bind_of_ok (exec_get t), exec_pure, (registersKept_imageBytes h).operandSize]

theorem loadTable_ok {p : List Prefix} {o : RmOp} {s t : State} {pas : List Word32} (ho : isRegister o = false) (hcpl : s.cpl = 0)
    (h : imageBytes p o false s = .ok (pas, t)) (f : State → TableReg → State) :
    (do requireMemory o; requirePrivilege; let g ← readTable p o; modify fun s => f s g : Exec Unit) s
      = .ok ((), f t (tableOf (s.operandSize p) (littleEndian (t.bytesAt pas)))) := by
  rw [exec_bind_of_ok (requireMemory_ok ho s), exec_bind_of_ok (requirePrivilege_ok hcpl), exec_bind_of_ok (readTable_ok h)]
  rfl

section
variable {p : List Prefix} {o : RmOp} {s t : State} {pas : List Word32} (hp : Plain p) (ho : isRegister o = false) (hcpl : s.cpl = 0)
  (h : imageBytes p o false s = .ok (pas, t))
include hp ho hcpl h

theorem exec_lgdt : exec (.lgdt p o) s
    = .next { t.completed (.lgdt p o) with gdtr := tableOf (s.operandSize p) (littleEndian (t.bytesAt pas)) } :=
  runInstr_ok (i := .lgdt p o) hp (loadTable_ok ho hcpl h fun s g => { s with gdtr := g })
    (congrArg (fun u : State => { u with gdtr := tableOf (s.operandSize p) (littleEndian (t.bytesAt pas)) })
      ((registersKept_imageBytes h).advance (.lgdt p o)))

theorem exec_lidt : exec (.lidt p o) s
    = .next { t.completed (.lidt p o) with idtr := tableOf (s.operandSize p) (littleEndian (t.bytesAt pas)) } :=
  runInstr_ok (i := .lidt p o) hp (loadTable_ok ho hcpl h fun s g => { s with idtr := g })
    (congrArg (fun u : State => { u with idtr := tableOf (s.operandSize p) (littleEndian (t.bytesAt pas)) })
      ((registersKept_imageBytes h).advance (.lidt p o)))

end

/-! ### The image with paging off (R222) -/

/-- Both parts of a table image are inside the segment and no device's, and the operand is aligned. -/
structure State.ImageFits (s : State) (p : List Prefix) (o : RmOp) (w : Bool) : Prop where
  lo : s.segAllows (operandSegment p o) w (s.offset o) 2 = true
  hi : s.segAllows (operandSegment p o) w (secondOffset o (s.offset o)) 4 = true
  device : s.deviceAt (s.tableAddrs p o) = false
  aligned : s.misaligned (s.operandAddr p o) 6 = false

theorem deviceAt_append_eq_false_iff {s : State} {as bs : List Word32} :
    s.deviceAt (as ++ bs) = false ↔ s.deviceAt as = false ∧ s.deviceAt bs = false := by
  rw [State.deviceAt, List.any_append, Bool.or_eq_false_iff]
  rfl

theorem imageBytes_flat {s : State} {p : List Prefix} {o : RmOp} {w : Bool} (hflat : s.paging = false) (h : s.ImageFits p o w) :
    ∃ t, imageBytes p o w s = .ok (s.tableAddrs p o, t) ∧ t = { s with pending := t.pending, draws := t.draws } := by
  obtain ⟨hlo, hhi, hdev, halign⟩ := h
  obtain ⟨hdevLo, hdevHi⟩ := deviceAt_append_eq_false_iff.mp hdev
  refine ⟨(s.noted (.data w (s.operandAddr p o) 2)).noted (.data w (s.linear (operandSegment p o) (secondOffset o (s.offset o))) 4),
    ?_, rfl⟩
  unfold imageBytes
  rw [exec_bind_of_ok (exec_get s), exec_bind_of_ok (operandBytes_flat hflat hlo hdevLo),
    exec_bind_of_ok (operandBytes_flat (s := s.noted _) hflat hhi hdevHi), exec_bind_of_ok (checkAlignment_ok (by exact halign))]
  rfl

theorem imageFits_of_imageBytes {s t : State} {p : List Prefix} {o : RmOp} {w : Bool} {pas : List Word32} (hflat : s.paging = false)
    (h : imageBytes p o w s = .ok (pas, t)) (halign : s.misaligned (s.operandAddr p o) 6 = false) :
    s.ImageFits p o w ∧ pas = s.tableAddrs p o := by
  obtain ⟨lo, u, hi, hlo, hhi, rfl⟩ := imageBytes_ok h
  obtain ⟨hallowLo, hdevLo, rfl, rfl⟩ := operandBytes_flat_ok hflat hlo
  obtain ⟨hallowHi, hdevHi, rfl, rfl⟩ := operandBytes_flat_ok (s := s.noted _) hflat hhi
  exact ⟨⟨hallowLo, hallowHi, deviceAt_append_eq_false_iff.mpr ⟨hdevLo, hdevHi⟩, halign⟩, rfl⟩

/-- Settles O26: the number that the six bytes hold, taken apart, and with paging off the two accesses. -/
theorem tableLoaded : Obligations.TableLoaded := by
  refine ⟨fun p o s t pas b0 b1 b2 b3 b4 b5 hp ho hcpl hwf h hbytes => ?_, ?_⟩
  · have hlgdt := exec_lgdt hp ho hcpl h
    have hlidt := exec_lidt hp ho hcpl h
    rw [hbytes, tableOf_bytes] at hlgdt hlidt
    intro g
    have hg : g = { limit := word16 b0 b1, base := word32 b2 b3 b4 (if s.operandSize p = .s16 then 0 else b5) } := by
      cases hsize : s.operandSize p <;> simp only [g, hsize] <;> rfl
    rw [hg]
    exact ⟨hlgdt, hlidt, (marked_imageBytes h hwf).accessed⟩
  · intro p o w s hflat r off next pas hlo hhi hdev halign
    have hnext : next = secondOffset o (s.offset o) := by cases o <;> rfl
    have hpas : pas = s.tableAddrs p o := by simp only [pas, hnext]; rfl
    rw [hnext] at hhi
    rw [hpas] at hdev ⊢
    exact ⟨rfl, imageBytes_flat hflat ⟨hlo, hhi, hdev, halign⟩⟩

/-! ### The same operand at a later time -/

/-- What the address of an operand and the checks on it are read from is in `t` as in `s`. -/
structure SameOperands (s t : State) : Prop where
  gpr : t.gpr = s.gpr
  segs : t.segs = s.segs
  cr0 : t.cr0 = s.cr0
  vm : t.vm = s.vm
  cplField : t.cplField = s.cplField
  part : t.part = s.part

/-- The end of an instruction clears RF, which no operand reads. -/
theorem RegistersKept.sameOperands_completed {s t : State} (h : RegistersKept s t) (i : Instr) : SameOperands s (t.completed i) where
  gpr := by rw [h]; rfl
  segs := by rw [h]; rfl
  cr0 := by rw [h]; rfl
  vm := (clearRf_vm t).trans (by rw [h]; rfl)
  cplField := by rw [h]; rfl
  part := by rw [h]; rfl

namespace SameOperands

variable {s t : State} (h : SameOperands s t)
include h

theorem prot : t.prot = s.prot := by
  rw [State.prot, State.prot, State.pe, h.cr0, h.vm, State.pe]

theorem cpl : t.cpl = s.cpl := by
  rw [State.cpl, State.cpl, State.pe, h.cr0, h.vm, h.cplField, State.pe]

theorem paging : t.paging = s.paging := by
  rw [State.paging, State.pg, State.pe, h.cr0]
  rfl

theorem operandSize (p : List Prefix) : t.operandSize p = s.operandSize p :=
  congrArg (Prefix.operandSize · p) (codeSize_of_eq h.cr0 h.vm (congrArg Segs.cs h.segs))

theorem seg (r : SegReg) : t.seg r = s.seg r := congrArg (Segs.get · r) h.segs

theorem linear (r : SegReg) (off : Word32) : t.linear r off = s.linear r off := by
  rw [State.linear, h.seg, State.linear]

theorem offset (o : RmOp) : t.offset o = s.offset o :=
  congrArg (fun g => State.offset { s with gpr := g } o) h.gpr

theorem tableAddrs (p : List Prefix) (o : RmOp) : t.tableAddrs p o = s.tableAddrs p o := by
  rw [State.tableAddrs, State.tableAddrs, h.offset, h.linear, h.linear]

theorem segAllows (r : SegReg) (w : Bool) (off : Word32) (n : Nat) : t.segAllows r w off n = s.segAllows r w off n := by
  rw [State.segAllows, State.segAllows, h.prot, h.seg]

theorem deviceAt (pas : List Word32) : t.deviceAt pas = s.deviceAt pas := by
  rw [State.deviceAt, State.deviceAt, h.part]

/-- No operand reads the table registers. -/
theorem withTables (g g' : TableReg) : SameOperands s { t with gdtr := g, idtr := g' } :=
  ⟨h.gpr, h.segs, h.cr0, h.vm, h.cplField, h.part⟩

end SameOperands

/-! ### Load after store (R231) -/

/-- A place that may be written may be read (20_memory.md R152). -/
theorem segAllows_read_of_write {s : State} {r : SegReg} {off : Word32} {n : Nat} (h : s.segAllows r true off n = true) :
    s.segAllows r false off n = true := by
  cases hprot : s.prot with
  | false =>
    rw [segAllows_iff_of_not_prot hprot] at h ⊢
    exact h
  | true =>
    rw [segAllows_of_prot hprot, allows_iff] at h ⊢
    obtain ⟨hpresent, hseg, hwrite, -, hlimit⟩ := h
    exact ⟨hpresent, hseg, nofun, fun _ => .inl (hwrite rfl).1, hlimit⟩

/-- The alignment check is made at level 3 only (20_memory.md R138). -/
theorem misaligned_of_cpl_zero {s : State} (h : s.cpl = 0) (lin : Word32) (n : Nat) : s.misaligned lin n = false := by
  rw [State.misaligned, h]
  simp

/-- Where an image has been stored, a later load with the same operand finds it. -/
theorem imageBytes_of_sameOperands {p : List Prefix} {o : RmOp} {s t w : State} {pas : List Word32} (hcpl : s.cpl = 0)
    (hflat : s.paging = false) (h : imageBytes p o true s = .ok (pas, t)) (hw : SameOperands s w) :
    ∃ v, imageBytes p o false w = .ok (pas, v) ∧ v.mem = w.mem := by
  obtain ⟨⟨hlo, hhi, hdev, -⟩, hpas⟩ := imageFits_of_imageBytes hflat h (misaligned_of_cpl_zero hcpl _ _)
  have hfits : w.ImageFits p o false := by
    constructor
    · rw [hw.segAllows, hw.offset]
      exact segAllows_read_of_write hlo
    · rw [hw.segAllows, hw.offset]
      exact segAllows_read_of_write hhi
    · rw [hw.deviceAt, hw.tableAddrs, hdev]
    · exact misaligned_of_cpl_zero (hw.cpl.trans hcpl) _ _
  obtain ⟨v, himage, hv⟩ := imageBytes_flat (hw.paging.trans hflat) hfits
  rw [hw.tableAddrs, ← hpas] at himage
  exact ⟨v, himage, by rw [hv]⟩

/-- With 32-bit operand size the six bytes are the whole register. -/
theorem tableOf_tableImage (k : Nat) (g : TableReg) : tableOf .s32 (littleEndian (tableImage .s32 k g)) = g := by
  refine (tableOf_bytes .s32 _ _ _ _ _ _).trans ?_
  rw [if_neg (by decide), word16_bytes16, word32_bytes32]

/-- The load gives what the image stored before it holds. -/
theorem imageBytes_of_stored {p : List Prefix} {o : RmOp} {s t w : State} {pas : List Word32} {g : TableReg} (hcpl : s.cpl = 0)
    (hflat : s.paging = false) (hwf : Memory.wf s.mem = true) (hsize : s.operandSize p = .s32)
    (h : imageBytes p o true s = .ok (pas, t)) (hram : s.ram pas = true) (hw : SameOperands s w)
    (hmem : w.mem = (t.withTable .s32 pas g).mem) :
    ∃ v, imageBytes p o false w = .ok (pas, v) ∧ tableOf (w.operandSize p) (littleEndian (v.bytesAt pas)) = g := by
  obtain ⟨v, himage, hv⟩ := imageBytes_of_sameOperands hcpl hflat h hw
  obtain ⟨hnodup, hlen⟩ := nodup_imageBytes h
  have hstored : (t.withTable .s32 pas g).bytesAt pas = tableImage .s32 t.draws g :=
    bytesAt_storeBytes hlen hnodup (((registersKept_imageBytes h).ram pas).trans hram) (marked_imageBytes h hwf).wf
  have hbytes : v.bytesAt pas = tableImage .s32 t.draws g := by
    rw [← hstored]
    unfold State.bytesAt State.physByte
    rw [hv, hmem]
  exact ⟨v, himage, by rw [hw.operandSize, hsize, hbytes, tableOf_tableImage]⟩

/-- Settles O27: the load makes the accesses of the store again and finds its six bytes. -/
theorem tableRoundTrip : Obligations.TableRoundTrip := by
  intro p o s t pas hp ho hcpl hflat hwf hsize h hram
  have hstore (i : Instr) (g : TableReg) : SameOperands s ((t.withTable .s32 pas g).completed i) :=
    RegistersKept.sameOperands_completed
      (registersKept_frame.trans _ _ _ (registersKept_imageBytes h) (registersKept_withTable ..)) i
  have hsgdt : exec (.sgdt p o) s = _ := runInstr_storeTable (.sgdt p o) hp ho h s.gdtr
  have hsidt : exec (.sidt p o) s = _ := runInstr_storeTable (.sidt p o) hp ho h s.idtr
  rw [hsize] at hsgdt hsidt
  refine ⟨⟨_, hsgdt, fun g => ?_⟩, ⟨_, hsidt, fun g => ?_⟩⟩
  · have hlater : SameOperands s { (t.withTable .s32 pas s.gdtr).completed (.sgdt p o) with gdtr := g } :=
      (hstore (.sgdt p o) s.gdtr).withTables g _
    obtain ⟨v, himage, htable⟩ := imageBytes_of_stored hcpl hflat hwf hsize h hram hlater rfl
    exact ⟨_, exec_lgdt hp ho (hlater.cpl.trans hcpl) himage, htable⟩
  · have hlater : SameOperands s { (t.withTable .s32 pas s.idtr).completed (.sidt p o) with idtr := g } :=
      (hstore (.sidt p o) s.idtr).withTables _ g
    obtain ⟨v, himage, htable⟩ := imageBytes_of_stored hcpl hflat hwf hsize h hram hlater rfl
    exact ⟨_, exec_lidt hp ho (hlater.cpl.trans hcpl) himage, htable⟩

end Sys2Proof.Machine
end

section
/-! PROOFS. LLDT and LTR (40_descriptor_table_instructions.md R226, R228). -/

namespace Sys2Proof.Machine

/-! ### The selector -/

section
variable {p : List Prefix} {o : RmOp} {s t : State} {w : Word16} (h : WordSource p o s w t)
include h

theorem WordSource.readRm16 : readRm16 p o s = .ok (w, t) := by
  have hmemory : ∀ b0 b1 pas, operandBytes (operandSegment p o) false (s.offset o) 2 s = .ok (pas, t) →
      s.misaligned (s.operandAddr p o) 2 = false → t.bytesAt pas = [b0, b1] →
      lmemRead (operandSegment p o) (s.offset o) 2 s = .ok ((word16 b0 b1).toNat, t) := by
    intro b0 b1 pas hread halign hbytes
    rw [lmemRead_of_operandBytes hread, ← State.operandAddr, halign, hbytes, littleEndian_two]
    rfl
  cases o with
  | reg r =>
    obtain ⟨rfl, rfl⟩ := h
    exact exec_bind_of_ok (exec_get _)
  | mem16 a | mem32 a =>
    obtain ⟨b0, b1, pas, hread, halign, hbytes, rfl⟩ := h
    refine (exec_bind_of_ok (exec_get s)).trans ((exec_bind_of_ok (hmemory b0 b1 pas hread halign hbytes)).trans ?_)
    rw [exec_pure, BitVec.ofNat_toNat, BitVec.setWidth_eq]

theorem WordSource.registersKept : RegistersKept s t :=
  keeps_readRm16 registersKept_operandClosed p o s w t h.readRm16

/-- With paging off a source is read and a breakpoint condition noted. -/
theorem WordSource.flat (hflat : s.paging = false) : t = { s with pending := t.pending, draws := t.draws } := by
  cases o with
  | reg r =>
    obtain ⟨-, rfl⟩ := h
    rfl
  | mem16 a | mem32 a =>
    obtain ⟨_, _, _, hread, -⟩ := h
    obtain ⟨-, -, -, rfl⟩ := operandBytes_flat_ok hflat hread
    rfl

/-- LLDT and LTR at level 0 in Protected Mode: the selector is read and loaded. -/
theorem loadSelector_eq (hprot : s.prot = true) (hcpl : s.cpl = 0) (load : Word16 → Exec Unit) :
    (do requireProtected; requirePrivilege; let sel ← readRm16 p o; load sel : Exec Unit) s = load w t := by
  rw [exec_bind_of_ok (requireProtected_ok hprot), exec_bind_of_ok (requirePrivilege_ok hcpl), exec_bind_of_ok h.readRm16]

end

theorem selNull_iff {w : Word16} : selNull w = true ↔ field w 2 14 = 0 := beq_iff_eq

/-- A selector of the LDT is not null (20_memory.md R147). -/
theorem selNull_of_ti {w : Word16} (h : bit w 2 = true) : selNull w = false := by
  refine Bool.eq_false_of_not_eq_true fun hnull => ?_
  have hbit : (field w 2 14).getLsbD 0 = bit w 2 := getLsbD_field w 2 14 0
  rw [selNull_iff.mp hnull, h] at hbit
  cases hbit

theorem not_selNull {w : Word16} (h : field w 2 14 ≠ 0) : selNull w = false := Bool.eq_false_of_not_eq_true (mt selNull_iff.mp h)

/-- A descriptor of the GDT lies outside it in `t` as in `s`. -/
theorem RegistersKept.outsideTable {s t : State} (h : RegistersKept s t) {w : Word16} (hti : bit w 2 = false)
    (hout : s.gdtr.limit.toNat < 8 * (field w 3 13).toNat + 7) : t.outsideTable w := by
  have hgdtr : t.gdtr = s.gdtr := by rw [h]
  exact (outsideTable_gdt_iff hti t).mpr (hgdtr ▸ hout)

theorem registersKept_readDescriptor {s t u : State} {w : Word16} {bad : Exn} {d : SegCache} (hkept : RegistersKept s t)
    (h : readDescriptor w bad t = .ok (d, u)) : RegistersKept s u :=
  registersKept_frame.trans _ _ _ hkept (keeps_readDescriptor registersKept_operandClosed.toMmuClosed w bad t d u h)

/-! ### A system descriptor of the GDT (R226, R228) -/

/-- The checks that LLDT and LTR make of a selector that is not null and of its descriptor, before they go on with the descriptor. -/
def withSystemDescriptor (w : Word16) (fits : SegCache → Bool) (load : SegCache → Exec Unit) : Exec Unit := do
  raiseIf (selTi w) (.gp (selCode w))
  let d ← readDescriptor w (.gp (selCode w))
  raiseIf (!fits d) (.gp (selCode w))
  raiseIf (!d.present) (.np (selCode w))
  load d

section
variable {w : Word16} {t : State} {fits : SegCache → Bool} {load : SegCache → Exec Unit}

theorem withSystemDescriptor_ti (h : bit w 2 = true) : withSystemDescriptor w fits load t = .error (.exc (.gp (selCode w))) :=
  exec_bind_of_error (raiseIf_raises h)

theorem withSystemDescriptor_gdt (h : bit w 2 = false) : withSystemDescriptor w fits load t = (do
    let d ← readDescriptor w (.gp (selCode w))
    raiseIf (!fits d) (.gp (selCode w))
    raiseIf (!d.present) (.np (selCode w))
    load d : Exec Unit) t := by
  have hti : selTi w = false := h
  rw [withSystemDescriptor, hti, exec_bind_of_ok (exec_raiseIf_false _ t)]

theorem withSystemDescriptor_outside (hti : bit w 2 = false) (hout : t.outsideTable w) :
    withSystemDescriptor w fits load t = .error (.exc (.gp (selCode w))) := by
  rw [withSystemDescriptor_gdt hti, exec_bind_of_error (readDescriptor_outside hout _)]

/-- A selector that names no descriptor of the GDT, checked after accesses. -/
theorem withSystemDescriptor_notInGdt {s : State} (hkept : RegistersKept s t)
    (h : bit w 2 = true ∨ (field w 2 14 ≠ 0 ∧ s.gdtr.limit.toNat < 8 * (field w 3 13).toNat + 7)) :
    selNull w = false ∧ withSystemDescriptor w fits load t = .error (.exc (.gp (selCode w))) := by
  cases hti : bit w 2 with
  | true => exact ⟨selNull_of_ti hti, withSystemDescriptor_ti hti⟩
  | false =>
    obtain ⟨hnull, hout⟩ := h.resolve_left (ne_of_eq_of_ne hti Bool.false_ne_true)
    exact ⟨not_selNull hnull, withSystemDescriptor_outside hti (hkept.outsideTable hti hout)⟩

variable {d : SegCache} {u : State} (hti : bit w 2 = false) (hread : readDescriptor w (.gp (selCode w)) t = .ok (d, u))
include hti hread

theorem withSystemDescriptor_wrongType (h : fits d = false) :
    withSystemDescriptor w fits load t = .error (.exc (.gp (selCode w))) := by
  rw [withSystemDescriptor_gdt hti, exec_bind_of_ok hread, h]
  exact exec_bind_of_error (exec_raiseIf_true _ u)

theorem withSystemDescriptor_absent (h : fits d = true) (habsent : bit d.attr 7 = false) :
    withSystemDescriptor w fits load t = .error (.exc (.np (selCode w))) := by
  have hp : d.present = false := habsent
  rw [withSystemDescriptor_gdt hti, exec_bind_of_ok hread, h, Bool.not_true, exec_bind_of_ok (exec_raiseIf_false _ u), hp]
  exact exec_bind_of_error (exec_raiseIf_true _ u)

theorem withSystemDescriptor_present (h : fits d = true) (hpresent : bit d.attr 7 = true) :
    withSystemDescriptor w fits load t = load d u := by
  have hp : d.present = true := hpresent
  rw [withSystemDescriptor_gdt hti, exec_bind_of_ok hread, h, Bool.not_true, exec_bind_of_ok (exec_raiseIf_false _ u), hp,
    Bool.not_true, exec_bind_of_ok (exec_raiseIf_false _ u)]

end

theorem isSystem_iff {d : SegCache} {k : BitVec 4} : d.isSystem k = true ↔ bit d.attr 4 = false ∧ field d.attr 0 4 = k := by
  rw [SegCache.isSystem, Bool.and_eq_true, Bool.not_eq_true', beq_iff_eq]
  rfl

/-! ### LLDT (R226) -/

/-- LDTR with selector `w` and the cache `d`. -/
def setLdt (w : Word16) (d : SegCache) : Exec Unit := modify fun s => { s with ldtr := { sel := w, cache := d } }

theorem loadLdt_null {w : Word16} (h : field w 2 14 = 0) (t : State) : loadLdt w t = .ok ((), { t with ldtr := .null w }) := by
  rw [loadLdt, if_pos (selNull_iff.mpr h), exec_modify]

theorem loadLdt_of_not_null {w : Word16} (h : selNull w = false) :
    loadLdt w = withSystemDescriptor w (SegCache.isSystem · 2) (setLdt w) := by
  rw [loadLdt, h]
  rfl

section
variable {p : List Prefix} {o : RmOp} {s t : State} {w : Word16} (hp : Plain p) (hprot : s.prot = true) (hcpl : s.cpl = 0)
  (hsource : WordSource p o s w t)
include hp hprot hcpl hsource

theorem exec_lldt_raises {e : Exn} (h : loadLdt w t = .error (.exc e)) : exec (.lldt p o) s = takeException e s :=
  runInstr_raises (i := .lldt p o) hp ((loadSelector_eq hsource hprot hcpl loadLdt).trans h)

/-- LDTR is loaded in a state that accesses have left. -/
theorem exec_lldt_loads {u : State} {l : SegState} (hkept : RegistersKept s u) (h : loadLdt w t = .ok ((), { u with ldtr := l })) :
    exec (.lldt p o) s = .next { u.completed (.lldt p o) with ldtr := l } :=
  runInstr_ok (i := .lldt p o) hp ((loadSelector_eq hsource hprot hcpl loadLdt).trans h)
    (congrArg (fun v : State => { v with ldtr := l }) (hkept.advance (.lldt p o)))

theorem exec_ltr_raises {e : Exn} (h : loadTask w t = .error (.exc e)) : exec (.ltr p o) s = takeException e s :=
  runInstr_raises (i := .ltr p o) hp ((loadSelector_eq hsource hprot hcpl loadTask).trans h)

/-- TR is loaded in a state that accesses have left. -/
theorem exec_ltr_loads {v : State} {l : SegState} (hkept : RegistersKept s v) (h : loadTask w t = .ok ((), { v with tr := l })) :
    exec (.ltr p o) s = .next { v.completed (.ltr p o) with tr := l } :=
  runInstr_ok (i := .ltr p o) hp ((loadSelector_eq hsource hprot hcpl loadTask).trans h)
    (congrArg (fun v : State => { v with tr := l }) (hkept.advance (.ltr p o)))

end

/-- Settles O30: the selector is read, and the load checks it and its descriptor in the order of R226. -/
theorem lldtLoads : Obligations.LldtLoads := by
  intro p o s t w hp hprot hcpl hsource
  have hkept := hsource.registersKept
  have raises {e : Exn} (hnull : selNull w = false)
      (h : withSystemDescriptor w (SegCache.isSystem · 2) (setLdt w) t = .error (.exc e)) :
      exec (.lldt p o) s = takeException e s :=
    exec_lldt_raises hp hprot hcpl hsource (loadLdt_of_not_null hnull ▸ h)
  refine ⟨fun hnull => exec_lldt_loads hp hprot hcpl hsource hkept (loadLdt_null hnull t), fun hbad => ?bad,
    fun d u hnull hti hread => ⟨fun htype => ?wrongType, fun hsystem htype habsent => ?absent,
      fun hsystem htype hpresent => ?present⟩⟩
  case bad =>
    obtain ⟨hnull, herror⟩ := withSystemDescriptor_notInGdt hkept hbad
    exact raises hnull herror
  case wrongType =>
    have hfits : d.isSystem 2 = false := Bool.eq_false_of_not_eq_true (mt isSystem_iff.mp htype)
    exact raises (not_selNull hnull) (withSystemDescriptor_wrongType hti hread hfits)
  case absent =>
    exact raises (not_selNull hnull) (withSystemDescriptor_absent hti hread (isSystem_iff.mpr ⟨hsystem, htype⟩) habsent)
  case present =>
    refine exec_lldt_loads hp hprot hcpl hsource (registersKept_readDescriptor hkept hread) ?_
    rw [loadLdt_of_not_null (not_selNull hnull), withSystemDescriptor_present hti hread (isSystem_iff.mpr ⟨hsystem, htype⟩) hpresent]
    rfl

/-! ### LTR (R228) -/

/-- The descriptor is marked busy in memory and in TR (R228). -/
def setTask (w : Word16) (d : SegCache) : Exec Unit := do
  markBusy w true
  modify fun s => { s with tr := { sel := w, cache := { d with attr := d.attr ||| 2 } } }

/-- A bit of the TYPE is a bit of the whole field (20_memory.md R149). -/
theorem withType_setBit (c : SegCache) (n : Nat) :
    c.withType (setBit c.type n true) = { c with attr := c.attr ||| ((0 : BitVec 8) ++ BitVec.ofNat 4 (2 ^ n)) } := by
  have hsplit : field c.attr 4 8 ++ field c.attr 0 4 = c.attr := (field_append_field c.attr 0 8 4).trans (field_self c.attr)
  have hor : field c.attr 4 8 ++ setBit c.type n true = c.attr ||| ((0 : BitVec 8) ++ BitVec.ofNat 4 (2 ^ n)) := by
    conv_rhs => rw [← hsplit, append_or_append]
    exact congrArg (· ++ _) BitVec.or_zero.symm
  rw [SegCache.withType, hor]

/-- The busy bit is bit 1 of the TYPE (20_memory.md R149). -/
theorem withType_busy (d : SegCache) : d.withType (setBit d.type 1 true) = { d with attr := d.attr ||| 2 } := withType_setBit d 1

theorem loadTask_null {w : Word16} (h : field w 2 14 = 0) (t : State) : loadTask w t = .error (.exc (.gp 0)) :=
  exec_bind_of_error (raiseIf_raises (selNull_iff.mpr h))

theorem loadTask_of_not_null {w : Word16} (h : selNull w = false) (t : State) :
    loadTask w t = withSystemDescriptor w (SegCache.isTss · false) (setTask w) t := by
  unfold loadTask
  simp only [withType_busy]
  rw [h, exec_bind_of_ok (exec_raiseIf_false _ t)]
  rfl

theorem isTss_available_iff {d : SegCache} :
    d.isTss false = true ↔ bit d.attr 4 = false ∧ (field d.attr 0 4 = 1 ∨ field d.attr 0 4 = 9) := by
  rw [SegCache.isTss, Bool.or_eq_true, isSystem_iff, isSystem_iff, ← and_or_left, or_comm]
  rfl

/-- With paging off the busy bit is stored in byte 5 of the descriptor (20_memory.md R149). -/
theorem markBusy_flat {t : State} {w : Word16} (hflat : t.paging = false) (hram : t.ram [t.descriptorAddr w + 5] = true) :
    markBusy w true t = .ok ((), t.storeByte (t.descriptorAddr w + 5) (t.physByte (t.descriptorAddr w + 5) ||| 2)) :=
  updateType_flat hflat (deviceAt_of_ram hram) 1 true

/-- Settles O31: the checks are made in the order of R228, and the busy bit is set after them. -/
theorem ltrLoads : Obligations.LtrLoads := by
  intro p o s t w hp hprot hcpl hsource
  have hkept := hsource.registersKept
  have raises {e : Exn} (hnull : selNull w = false)
      (h : withSystemDescriptor w (SegCache.isTss · false) (setTask w) t = .error (.exc e)) :
      exec (.ltr p o) s = takeException e s :=
    exec_ltr_raises hp hprot hcpl hsource ((loadTask_of_not_null hnull t).trans h)
  refine ⟨fun hnull => exec_ltr_raises hp hprot hcpl hsource (loadTask_null hnull t), fun hbad => ?bad,
    fun d u hnull hti hread => ⟨fun htype => ?wrongType, fun hsystem htype => ?tss⟩⟩
  case bad =>
    obtain ⟨hnull, herror⟩ := withSystemDescriptor_notInGdt hkept hbad
    exact raises hnull herror
  case wrongType =>
    have hfits : d.isTss false = false := Bool.eq_false_of_not_eq_true (mt isTss_available_iff.mp htype)
    exact raises (not_selNull hnull) (withSystemDescriptor_wrongType hti hread hfits)
  case tss =>
    have hfits : d.isTss false = true := isTss_available_iff.mpr ⟨hsystem, htype⟩
    have hloads (hpresent : bit d.attr 7 = true) (v : State) (hbusy : markBusy w true u = .ok ((), v)) :
        exec (.ltr p o) s
          = .next { v.completed (.ltr p o) with tr := { sel := w, cache := { d with attr := d.attr ||| 2 } } } := by
      have hmarked : RegistersKept s v := registersKept_frame.trans _ _ _ (registersKept_readDescriptor hkept hread)
        (keeps_markBusy registersKept_operandClosed.toMmuClosed w true u () v hbusy)
      refine exec_ltr_loads hp hprot hcpl hsource hmarked ?_
      rw [loadTask_of_not_null (not_selNull hnull), withSystemDescriptor_present hti hread hfits hpresent, setTask,
        exec_bind_of_ok hbusy, exec_modify]
    refine ⟨fun habsent => raises (not_selNull hnull) (withSystemDescriptor_absent hti hread hfits habsent), hloads,
      fun hpresent hflat hwf hram => ?_⟩
    obtain ⟨pending, draws, rfl⟩ : ∃ pending draws, t = { s with pending := pending, draws := draws } :=
      ⟨_, _, hsource.flat hflat⟩
    obtain rfl := readDescriptor_flat_ok (by exact hflat) hread
    have hkind : s.part.kindAt (s.descriptorAddr w + 5) = .ram := by simpa [State.ram] using hram
    exact ⟨_, hloads hpresent _ (markBusy_flat hflat hram), rfl, physByte_storeByte _ hkind hwf,
      fun a ha => physByte_storeByte_other _ ha hwf⟩

end Sys2Proof.Machine
end

section
/-! PROOFS. What a write of a control register leaves, bit by bit, and that a legal mode stays legal (10_state.md R22, R61, R84; 41 R243,
R246, R247; 60_exceptions.md R374, R375). -/

namespace Sys2Proof.Machine

/-! ### Bits -/

theorem bit_setBit {w : Nat} (v : BitVec w) (i j : Nat) (b : Bool) : bit (setBit v i b) j = if i = j ∧ j < w then b else bit v j :=
  getLsbD_setBit v i j b

theorem bit_or {w : Nat} (v u : BitVec w) (k : Nat) : bit (v ||| u) k = (bit v k || bit u k) := BitVec.getLsbD_or ..

theorem bit_and {w : Nat} (v u : BitVec w) (k : Nat) : bit (v &&& u) k = (bit v k && bit u k) := BitVec.getLsbD_and ..

theorem bit_not {w : Nat} (v : BitVec w) {k : Nat} (hk : k < w) : bit (~~~ v) k = !bit v k := by
  simp [bit, hk]

theorem bit_merge {w : Nat} (mask v new : BitVec w) {k : Nat} (hk : k < w) :
    bit (merge mask v new) k = if bit mask k then bit new k else bit v k := by
  rw [merge, bit_or, bit_and, bit_and, bit_not _ hk]
  cases bit mask k <;> simp

theorem bit_of_ge {w : Nat} (v : BitVec w) {k : Nat} (hk : w ≤ k) : bit v k = false := BitVec.getLsbD_of_ge v k hk

theorem lt_of_bit {w : Nat} {v : BitVec w} {k : Nat} (h : bit v k = true) : k < w := BitVec.lt_of_getLsbD h

theorem field_and {w : Nat} (v mask : BitVec w) (lo len : Nat) :
    field (v &&& mask) lo len = field v lo len &&& field mask lo len := by
  refine BitVec.eq_of_getLsbD_eq fun j hj => ?_
  simp only [getLsbD_field, BitVec.getLsbD_and, hj, decide_true, Bool.true_and]

/-- A value lies inside a mask when each of its bits does. -/
theorem and_not_eq_zero_iff {w : Nat} {v mask : BitVec w} : v &&& ~~~ mask = 0 ↔ ∀ k, bit v k = true → bit mask k = true := by
  constructor
  · intro h k hk
    have hout : bit (v &&& ~~~ mask) k = false := by rw [h]; exact BitVec.getLsbD_zero
    simpa [bit_and, bit_not _ (lt_of_bit hk), hk] using hout
  · intro h
    refine BitVec.eq_of_getLsbD_eq fun k hk => ?_
    have hout : bit (v &&& ~~~ mask) k = false := by
      rw [bit_and, bit_not _ hk]
      cases hv : bit v k with
      | false => rfl
      | true => simp [h k hv]
    exact hout.trans BitVec.getLsbD_zero.symm

/-! ### CR0 (10_state.md R61; 41 R243, R247) -/

theorem bit_fixCr0 (v : Word32) (k : Nat) : bit (fixCr0 v) k = ((bit v k && bit cr0Writable k) || bit (0x10 : Word32) k) := by
  rw [fixCr0, bit_or, bit_and]

/-- The ten flags take the value's bits. -/
theorem bit_fixCr0_flag (v : Word32) {k : Nat} (h : k ∈ [0, 1, 2, 3, 5, 16, 18, 29, 30, 31]) : bit (fixCr0 v) k = bit v k := by
  have hflags : ∀ j ∈ [0, 1, 2, 3, 5, 16, 18, 29, 30, 31], bit cr0Writable j = true ∧ bit (0x10 : Word32) j = false := by decide
  obtain ⟨hmask, hone⟩ := hflags k h
  rw [bit_fixCr0, hmask, hone, Bool.and_true, Bool.or_false]

theorem bit_fixCr0_et (v : Word32) : bit (fixCr0 v) 4 = true := by
  rw [bit_fixCr0]
  exact Bool.or_true _

theorem bit_fixCr0_other (v : Word32) {k : Nat} (h : k ∉ [0, 1, 2, 3, 4, 5, 16, 18, 29, 30, 31]) : bit (fixCr0 v) k = false := by
  have hothers : ∀ j < 32, j ∉ [0, 1, 2, 3, 4, 5, 16, 18, 29, 30, 31] → bit cr0Writable j = false ∧ bit (0x10 : Word32) j = false := by
    decide
  by_cases hk : k < 32
  · obtain ⟨hmask, hone⟩ := hothers k hk h
    rw [bit_fixCr0, hmask, hone, Bool.and_false, Bool.or_false]
  · exact bit_of_ge _ (by omega)

theorem bit_lmswCr0_pe (cr0 : Word32) (w : Word16) : bit (lmswCr0 cr0 w) 0 = (bit w 0 || bit cr0 0) := by
  have hmerge : bit (merge 0x0000000E cr0 (zext32 w)) 0 = bit cr0 0 := bit_merge _ _ _ (by decide)
  have hset : bit (zext32 (field w 0 1)) 0 = bit w 0 := by simp [bit, zext32, field]
  rw [lmswCr0, bit_or, hmerge, hset, Bool.or_comm]

/-- Above bit 0, LMSW takes the three flags from the operand and keeps the rest. -/
theorem bit_lmswCr0 (cr0 : Word32) (w : Word16) {k : Nat} (hk0 : 0 < k) (hk : k < 32) :
    bit (lmswCr0 cr0 w) k = if bit (0x0000000E : Word32) k then bit w k else bit cr0 k := by
  have hmerge := bit_merge 0x0000000E cr0 (zext32 w) hk
  have hpe : bit (zext32 (field w 0 1)) k = false := by simp [bit, zext32, field, show ¬ k < 1 by omega]
  have hzext : bit (zext32 w) k = bit w k := by simp [bit, zext32, hk]
  rw [hzext] at hmerge
  rw [← hmerge, lmswCr0, bit_or, hpe, Bool.or_false]

theorem bit_lmswCr0_above (cr0 : Word32) (w : Word16) {k : Nat} (h : 3 < k) : bit (lmswCr0 cr0 w) k = bit cr0 k := by
  by_cases hk : k < 32
  · have hkept : ∀ j < 32, 3 < j → bit (0x0000000E : Word32) j = false := by decide
    rw [bit_lmswCr0 cr0 w (by omega) hk, hkept k hk h]
    rfl
  · rw [bit_of_ge _ (by omega), bit_of_ge _ (by omega)]

/-! ### CR4 (10_state.md R84, R93, R94) -/

/-- The part implements bit `k` of CR4. -/
def cr4Bit (f : Features) : Nat → Bool
  | 0 => f.vme
  | 1 => f.pvi
  | 2 => f.tsd
  | 3 => f.de
  | 4 => f.pse
  | 6 => f.mce
  | 7 => f.pge
  | 8 => f.pce
  | 9 => f.osfxsr
  | 10 => f.osxmmexcpt
  | _ => false

theorem bit_cr4Mask (f : Features) (k : Nat) : bit (cr4Mask f) k = cr4Bit f k := by
  have b0 := f.vme.toNat_le
  have b1 := f.pvi.toNat_le
  have b2 := f.tsd.toNat_le
  have b3 := f.de.toNat_le
  have b4 := f.pse.toNat_le
  have b6 := f.mce.toNat_le
  have b7 := f.pge.toNat_le
  have b8 := f.pce.toNat_le
  have b9 := f.osfxsr.toNat_le
  have b10 := f.osxmmexcpt.toNat_le
  have habove : ∀ j, 11 ≤ j → bit (cr4Mask f) j = false := by
    intro j hj
    by_cases hj32 : j < 32
    · have hpow : 2 ^ 11 ≤ 2 ^ j := Nat.pow_le_pow_right (by decide) hj
      refine bit_ofNat_eq hj32 ?_
      rw [Nat.div_eq_of_lt (by omega)]
      rfl
    · exact bit_of_ge _ (by omega)
  match k with
  | 0 | 1 | 2 | 3 | 4 | 5 | 6 | 7 | 8 | 9 | 10 => exact bit_ofNat_eq (by decide) (by simp only [cr4Bit, Bool.toNat_false]; omega)
  | n + 11 => exact habove _ (by omega)

/-! ### The TLB and CR0 -/

theorem flushTlb_invalid {s : State} {e : TlbEntry} (h : e ∈ s.flushTlb.tlb) : e.v = false := by
  rw [flushTlb_tlb] at h
  obtain ⟨_, -, rfl⟩ := List.mem_map.mp h
  rfl

/-- A write of CR0 writes nothing else but the TLB and the level. -/
theorem setCr0_eq (s : State) (v : Word32) : s.setCr0 v
    = { s with cr0 := v, tlb := (s.setCr0 v).tlb, cplField := if s.pe = false ∧ bit v 0 = true then 0 else s.cplField } := by
  have hlevel : (if (!s.pe && bit v 0) = true then 0 else s.cplField) = if s.pe = false ∧ bit v 0 = true then 0 else s.cplField :=
    if_congr (by simp) rfl rfl
  rw [← hlevel]
  unfold State.setCr0
  dsimp only
  split <;> rfl

theorem setCr0_cr0 (s : State) (v : Word32) : (s.setCr0 v).cr0 = v := by rw [setCr0_eq]
theorem setCr0_eflags (s : State) (v : Word32) : (s.setCr0 v).eflags = s.eflags := by rw [setCr0_eq]

/-- A change of PG or PE empties the TLB (41 R243). -/
theorem setCr0_tlb_of_changed {s : State} {v : Word32} (h : bit v 31 ≠ s.pg ∨ bit v 0 ≠ s.pe) : (s.setCr0 v).tlb = s.flushTlb.tlb := by
  unfold State.setCr0
  rw [if_pos (by simpa using h)]

theorem setCr0_tlb_of_same {s : State} {v : Word32} (hpg : bit v 31 = s.pg) (hpe : bit v 0 = s.pe) : (s.setCr0 v).tlb = s.tlb := by
  unfold State.setCr0
  rw [if_neg (by simp [hpg, hpe])]

/-! ### A legal mode (41 R243; 60 R374, R375) -/

/-- A legal mode stays legal, and PE stays set: what every update keeps but MOV to CR0. -/
structure LegalKept (s t : State) : Prop where
  pe : s.pe = true → t.pe = true
  legal : s.legalMode → t.legalMode

/-- A legal mode stays legal. -/
def ModeKept (s t : State) : Prop := s.legalMode → t.legalMode

theorem legalKept_frame : IsFrame LegalKept where
  refl _ := ⟨id, id⟩
  trans _ _ _ h1 h2 := ⟨h2.pe ∘ h1.pe, h2.legal ∘ h1.legal⟩

/-- VM is set only from Protected Mode, and no other flag of the mode changes but PE, which is only set. -/
theorem legalKept_of_bits {s t : State} (hpe : s.pe = true → t.pe = true) (hbits : ∀ k ∈ [29, 30, 31], bit t.cr0 k = bit s.cr0 k)
    (hvm : t.vm = true → s.vm = true ∨ s.pe = true) : LegalKept s t := by
  refine ⟨hpe, fun ⟨hpg, hv86, hcd⟩ => ⟨fun h => ?_, fun h => ?_, fun h => ?_⟩⟩
  · exact hpe (hpg ((hbits 31 (by decide)).symm.trans h))
  · exact hpe ((hvm h).elim hv86 id)
  · exact (hbits 29 (by decide)).trans (hcd ((hbits 30 (by decide)).symm.trans h))

theorem legalKept_of_vm {s t : State} (h0 : t.cr0 = s.cr0) (hvm : t.vm = true → s.vm = true ∨ s.pe = true) : LegalKept s t :=
  legalKept_of_bits (by rw [State.pe, State.pe, h0]; exact id) (fun k _ => by rw [h0]) hvm

theorem legalKept_of_eq {s t : State} (h0 : t.cr0 = s.cr0) (hf : t.eflags = s.eflags) : LegalKept s t :=
  legalKept_of_vm h0 (by rw [State.vm, hf]; exact .inl)

/-! ### VM in the images of EFLAGS (60 R361; 44 R302) -/

theorem bit_fixImage_vm (s : State) (v : Word32) : bit (s.fixImage v) 17 = bit v 17 := by
  have hheld : bit (eflagsHeld s.part) 17 = true := by
    unfold eflagsHeld
    split <;> decide
  rw [fixImage_eq, bit_or, bit_and, hheld, Bool.and_true]
  exact Bool.or_false _

theorem bit_entryFlags_vm (fl : Word32) (c : Bool) : bit (entryFlags fl c) 17 = false := by
  unfold entryFlags
  cases c <;> simp [bit_setBit]

theorem bit_realEntryFlags_vm (fl : Word32) : bit (realEntryFlags fl) 17 = false := by
  simp [realEntryFlags, bit_setBit, bit_entryFlags_vm]

/-- In Real Mode IRET does not load VM (44 R302). -/
theorem bit_iretMask_vm {s : State} (h : s.pe = false) (z : OpSize) : bit (s.iretMask z) 17 = false := by
  cases z <;> simp [State.iretMask, h] <;> decide

theorem bit_iretEflags_vm {s : State} {z : OpSize} {fl : Word32} (h : bit (s.iretEflags z fl) 17 = true) :
    s.vm = true ∨ s.pe = true := by
  cases hpe : s.pe with
  | true => exact .inr rfl
  | false =>
    rw [State.iretEflags, bit_fixImage_vm, bit_merge _ _ _ (by decide), bit_iretMask_vm hpe z, if_neg Bool.false_ne_true,
      clearRf_vm] at h
    exact .inl h

theorem bit_virtualIretEflags_vm (s : State) (f : Word16) : bit (s.virtualIretEflags f) 17 = s.vm := by
  rw [State.virtualIretEflags, bit_fixImage_vm, bit_setBit, if_neg (by decide), bit_merge _ _ _ (by decide)]
  exact clearRf_vm s

/-! ### What every update but MOV to CR0 keeps -/

/-- A jump with an image masked in an earlier state. -/
theorem legalKept_jumpTo {s t : State} (h : LegalKept s t) (eip : Word32) {fl : Word32}
    (hfl : bit fl 17 = true → s.vm = true ∨ s.pe = true) : LegalKept s (t.jumpTo eip fl) := by
  refine ⟨h.pe, fun hs => ?_⟩
  obtain ⟨-, hvm, -⟩ := id hs
  obtain ⟨hpg, -, hcd⟩ := h.legal hs
  exact ⟨hpg, fun hv => h.pe ((hfl hv).elim hvm id), hcd⟩

/-- A task switch happens in Protected Mode, and writes only TS of CR0 (20_memory.md R159). -/
theorem legalKept_enterTask (s : State) (g : SegState) (kind : SwitchKind) (c : TaskContext) (h : s.pe = true) :
    LegalKept s (({ s with tr := g } : State).enterTask kind c) := by
  have hcr0 : ∀ k, k ≠ 3 → bit (({ s with tr := g } : State).enterTask kind c).cr0 k = bit s.cr0 k := fun k hk =>
    (bit_setBit s.cr0 3 k true).trans (if_neg fun ⟨h3, _⟩ => hk h3.symm)
  refine legalKept_of_bits (fun _ => (hcr0 0 (by decide)).trans h) (fun k hk => hcr0 k ?_) fun _ => .inr h
  rintro rfl
  exact absurd hk (by decide)

theorem legalKept_stepClosed : StepClosed LegalKept where
  frame := legalKept_frame
  store _ _ _ := legalKept_of_eq (storeBytes_cr0 ..) (storeBytes_eflags ..)
  tlb _ _ _ := legalKept_of_eq rfl rfl
  draws _ _ := legalKept_of_eq rfl rfl
  pending _ _ := legalKept_of_eq rfl rfl
  esp _ _ := legalKept_of_eq rfl rfl
  segs _ _ := legalKept_of_eq rfl rfl
  level s n := legalKept_of_vm rfl fun h => by simp [State.vm, State.atLevel, bit_setBit] at h
  jump s eip c := legalKept_jumpTo (legalKept_frame.refl s) eip fun h => by simp [bit_entryFlags_vm] at h
  jumpReal s eip := legalKept_jumpTo (legalKept_frame.refl s) eip fun h => by simp [bit_realEntryFlags_vm] at h
  guard _ := legalKept_of_eq rfl rfl
  ldtr _ _ := legalKept_of_eq rfl rfl
  cpl _ _ := legalKept_of_eq rfl rfl
  task := legalKept_enterTask
  setEip _ := legalKept_of_eq rfl rfl
  raised _ _ := legalKept_of_eq (raised_cr0 ..) (raised_eflags ..)
  down _ := legalKept_of_eq rfl rfl
  iret _ _ eip _ _ h := legalKept_jumpTo h eip bit_iretEflags_vm
  iretVirtual s _ eip f h := legalKept_jumpTo h eip fun hv => .inl ((bit_virtualIretEflags_vm s f).symm.trans hv)
  unblock _ := legalKept_of_eq rfl rfl
  gprs _ _ := legalKept_of_eq rfl rfl
  gdtr _ _ := legalKept_of_eq rfl rfl
  idtr _ _ := legalKept_of_eq rfl rfl
  tr _ _ := legalKept_of_eq rfl rfl
  cr2 _ _ := legalKept_of_eq rfl rfl
  cr3 _ _ := legalKept_of_eq rfl rfl
  cr4 _ _ _ := legalKept_of_eq rfl rfl
  tr6 _ _ := legalKept_of_eq rfl rfl
  tr7 _ _ := legalKept_of_eq rfl rfl
  tr6Found _ _ := legalKept_of_eq rfl rfl
  tr7Found _ _ _ _ := legalKept_of_eq rfl rfl
  msr _ _ := legalKept_of_eq rfl rfl
  env _ _ := legalKept_of_eq rfl rfl
  activity _ _ := legalKept_of_eq rfl rfl
  nmiBlocked _ _ := legalKept_of_eq rfl rfl
  goOn s eip := legalKept_jumpTo (legalKept_frame.refl s) eip fun h => .inl ((clearRf_vm s).symm.trans h)
  report _ := legalKept_of_eq rfl rfl

theorem writeDr_cr0 (s : State) (n : BitVec 3) (v : Word32) : (s.writeDr n v).cr0 = s.cr0 := by
  unfold State.writeDr
  dsimp only
  split_ifs <;> rfl

theorem writeDr_eflags (s : State) (n : BitVec 3) (v : Word32) : (s.writeDr n v).eflags = s.eflags := by
  unfold State.writeDr
  dsimp only
  split_ifs <;> rfl

/-- LMSW sets PE and never clears it (41 R247). -/
theorem legalKept_lmsw (s : State) (w : Word16) : LegalKept s (s.setCr0 (lmswCr0 s.cr0 w)) := by
  refine legalKept_of_bits (fun h => ?_) (fun k hk => ?_) fun h => ?_
  · rw [State.pe, setCr0_cr0, bit_lmswCr0_pe, show bit s.cr0 0 = true from h, Bool.or_true]
  · have habove : ∀ j ∈ [29, 30, 31], 3 < j := by decide
    rw [setCr0_cr0, bit_lmswCr0_above _ _ (habove k hk)]
  · rw [State.vm, setCr0_eflags] at h
    exact .inl h

theorem legalKept_writes {i : Instr} (h : ∀ p mod r, i ≠ .movToCr p mod 0 r) : WritesKept LegalKept i := by
  cases i with
  | clts p => exact fun s => legalKept_of_bits (by simp [State.pe, bit_setBit]) (by simp [bit_setBit]) .inl
  | lmsw p o => exact fun s w => legalKept_lmsw s w
  | movToCr p mod n r => exact fun hn => absurd rfl (hn ▸ h p mod r)
  | movToDr p mod n r => exact fun s v => legalKept_of_eq (writeDr_cr0 s n v) (writeDr_eflags s n v)
  | _ => trivial

/-! ### MOV to CR0 -/

/-- At level 0 a legal mode is not Virtual-86 Mode. -/
theorem vm_of_cpl_zero {s : State} (hs : s.legalMode) (h : s.cpl = 0) : s.vm = false := by
  obtain ⟨-, hvm, -⟩ := hs
  refine Bool.eq_false_of_not_eq_true fun hv => ?_
  rw [State.cpl, hvm hv, hv] at h
  cases h

/-- A value that `WriteCR0` lets pass makes a legal mode, at level 0 (41 R243). -/
theorem legalMode_setCr0 {s : State} {v : Word32} (hvm : s.vm = false) (hpg : (bit v 31 && !bit v 0) = false)
    (hcd : (!bit v 30 && bit v 29) = false) : (s.setCr0 (fixCr0 v)).legalMode := by
  have hbit {k : Nat} (hk : k ∈ [0, 1, 2, 3, 5, 16, 18, 29, 30, 31]) : bit (s.setCr0 (fixCr0 v)).cr0 k = bit v k := by
    rw [setCr0_cr0, bit_fixCr0_flag v hk]
  have hvm' : (s.setCr0 (fixCr0 v)).vm = false := by rw [State.vm, setCr0_eflags]; exact hvm
  refine ⟨fun h => ?_, fun h => absurd h (by simp [hvm']), fun h => ?_⟩
  · have h31 : bit v 31 = true := (hbit (by decide)).symm.trans h
    exact (hbit (by decide)).trans (by simpa [h31] using hpg)
  · have h30 : bit v 30 = false := (hbit (by decide)).symm.trans h
    exact (hbit (by decide)).trans (by simpa [h30] using hcd)

theorem requirePrivilege_inv {s t : State} {a : Unit} (h : requirePrivilege s = .ok (a, t)) : s.cpl = 0 ∧ t = s := by
  by_cases hcpl : s.cpl = 0
  · rw [requirePrivilege_ok hcpl] at h
    cases h
    exact ⟨hcpl, rfl⟩
  · rw [requirePrivilege_raises hcpl] at h
    cases h

/-- MOV to CR0 writes it at level 0, a value with neither of the two forbidden combinations (41 R243). -/
theorem movToCr0_ok {v : Word32} {s t : State} {a : Unit}
    (h : (do raiseIf (!s.hasCr 0) .ud; requirePrivilege; writeCr 0 v : Exec Unit) s = .ok (a, t)) :
    s.cpl = 0 ∧ (bit v 31 && !bit v 0) = false ∧ (!bit v 30 && bit v 29) = false ∧ t = s.setCr0 (fixCr0 v) := by
  obtain ⟨_, s1, hcr, hrest⟩ := exec_bind_ok h
  obtain ⟨-, rfl⟩ := raiseIf_ok hcr
  obtain ⟨_, s2, hprivilege, hwrite⟩ := exec_bind_ok hrest
  obtain ⟨hcpl, rfl⟩ := requirePrivilege_inv hprivilege
  obtain ⟨_, s3, hpaging, hnext⟩ := exec_bind_ok hwrite
  obtain ⟨hpg, rfl⟩ := raiseIf_ok hpaging
  obtain ⟨_, s4, hcaching, hlast⟩ := exec_bind_ok hnext
  obtain ⟨hcd, rfl⟩ := raiseIf_ok hcaching
  cases hlast
  exact ⟨hcpl, hpg, hcd, rfl⟩

theorem modeKept_cycleClosed : CycleClosed ModeKept where
  frame := ⟨fun _ => id, fun _ _ _ h1 h2 => h2 ∘ h1⟩
  store s pas vs := (legalKept_stepClosed.store s pas vs).legal
  tlb _ _ _ := id
  draws _ _ := id
  pending _ _ := id
  msr _ _ := id
  env _ _ := id
  activity _ _ := id
  nmiBlocked _ _ := id
  report _ := id
  takeEvent ev s t ht := (legalKept_stepClosed.toCycleClosed.takeEvent ev s t ht).legal
  takeException e s t ht := (legalKept_stepClosed.toCycleClosed.takeException e s t ht).legal

theorem checkPrefixes_inv {p : List Prefix} {s t : State} {a : Unit} (h : checkPrefixes p s = .ok (a, t)) : t = s :=
  keeps_checkPrefixes (R := fun s t => t = s) ⟨fun _ => rfl, fun _ _ _ h1 h2 => h2.trans h1⟩ p s a t h

/-- An instruction that goes on to the next one, by its outcomes: its body answers, or it ends in an exception or a refusal. -/
theorem keepsFrom_runInstr_of_ok {R : State → State → Prop} (h : CycleClosed R) (i : Instr) {body : Exec Unit} {s : State}
    (hb : ∀ t, body s = .ok ((), t) → R s (s.advance t i)) : KeepsFrom R s (runInstr i body s) := by
  unfold runInstr
  rw [exec_run]
  cases hrun : (do checkPrefixes i.prefixes; body; modify fun t => s.advance t i : Exec Unit) s with
  | error e => exact keepsFrom_settle_error h s e
  | ok x =>
    obtain ⟨a, u⟩ := x
    obtain ⟨_, s1, hprefixes, hrest⟩ := exec_bind_ok hrun
    obtain ⟨_, t, hbody, hend⟩ := exec_bind_ok hrest
    obtain rfl := checkPrefixes_inv hprefixes
    cases hend
    exact keepsFrom_next (hb t hbody)

theorem modeKept_movToCr0 (p : List Prefix) (mod : BitVec 2) (r : Gpr) (s : State) :
    KeepsFrom ModeKept s (exec (.movToCr p mod 0 r) s) := by
  refine keepsFrom_runInstr_of_ok modeKept_cycleClosed (.movToCr p mod 0 r) fun t ht hs => ?_
  obtain ⟨hcpl, hpg, hcd, rfl⟩ := movToCr0_ok ht
  exact (legalKept_stepClosed.advance s _ _).legal (legalMode_setCr0 (vm_of_cpl_zero hs hcpl) hpg hcd)

theorem modeKept_exec (i : Instr) (s : State) : KeepsFrom ModeKept s (exec i s) := by
  by_cases h : ∃ p mod r, i = .movToCr p mod 0 r
  · obtain ⟨p, mod, r, rfl⟩ := h
    exact modeKept_movToCr0 p mod r s
  · refine fun t ht => (keepsFrom_exec legalKept_stepClosed (legalKept_writes fun p mod r hi => h ⟨p, mod, r, hi⟩) s t ht).legal

/-- Settles O14: MOV to CR0 checks its value, at a level that Virtual-86 Mode does not have; no other update clears PE or sets PG. -/
theorem stepKeepsLegalMode : Obligations.StepKeepsLegalMode := by
  intro s t hpart hs hstep
  by_cases hreset : s.env.reset = true
  · unfold step cycle at hstep
    rw [if_pos hreset] at hstep
    cases hstep
    exact hpart
  · exact keepsFrom_step modeKept_cycleClosed (fun h => absurd h hreset) (fun _ i u _ => modeKept_exec i u) t hstep hs

end Sys2Proof.Machine
end

section
/-! PROOFS. MOV to and from control registers, LMSW and CLTS (41_control_register_instructions.md R240 to R249). -/

namespace Sys2Proof.Machine

/-! ### The end of an instruction that leaves or enters Protected Mode -/

/-- Setting PE never makes 32-bit code 16-bit (10_state.md R22). -/
theorem codeSize_s16_of_pe {s t : State} (hpe : s.pe = true → t.pe = true) (hvm : t.vm = s.vm) (hcs : t.segs.cs = s.segs.cs)
    (h : t.codeSize = .s16) : s.codeSize = .s16 := by
  unfold State.codeSize State.prot at *
  rw [hvm, hcs] at h
  cases hs : s.pe with
  | false => rfl
  | true => rwa [hpe hs] at h

/-- Where PE is not cleared, an instruction ends with the EIP that `eipPlus` gives in the state it began in. -/
theorem advance_of_pe {s t : State} (i : Instr) (hpe : s.pe = true → t.pe = true) (hvm : t.vm = s.vm)
    (hcs : t.segs.cs = s.segs.cs) : s.advance t i = { t with
      eip := s.eipPlus i.length, eflags := clearRf t.eflags, pending := { t.pending with singleStep := s.tf } } := by
  have hwider := codeSize_s16_of_pe (t := { t with eflags := clearRf t.eflags }) hpe ((clearRf_vm t).trans hvm) hcs
  have heip : (s.advance t i).eip = s.eipPlus i.length := by
    rw [advance_eip]
    cases hz : State.codeSize { t with eflags := clearRf t.eflags } with
    | s16 => rw [State.eipPlus, hwider hz, codeOffset_idem]
    | s32 => rfl
  rw [← heip]
  rfl

/-- EIP at the end of an instruction, by the code size it ends in (10_state.md R22). -/
theorem advance_eip_by_size (s t : State) (i : Instr) : (s.advance t i).eip
    = if (s.advance t i).codeSize = .s32 then s.eipPlus i.length else zext32 (low16 (s.eipPlus i.length)) := by
  have hsize : (s.advance t i).codeSize = State.codeSize { t with eflags := clearRf t.eflags } := rfl
  rw [advance_eip, hsize]
  cases State.codeSize { t with eflags := clearRf t.eflags } <;> rfl

/-- After accesses an instruction ends as if it had begun there. -/
theorem RegistersKept.advance_from {s t : State} (h : RegistersKept s t) (u : State) (i : Instr) :
    s.advance u i = t.advance u i := by
  unfold RegistersKept at h
  rw [h]
  rfl

/-! ### MOV from a control register (R240, R244) -/

section
variable {p : List Prefix} {m : BitVec 2} {n : BitVec 3} {r : Gpr} {s : State} (hp : Plain p)
include hp

theorem exec_movFromCr_next (hn : s.hasCr n = true) (hcpl : s.cpl = 0) :
    exec (.movFromCr p m n r) s = .next { s.completed (.movFromCr p m n r) with gpr := s.gpr.set r (s.readCr n) } := by
  refine runInstr_ok (i := .movFromCr p m n r) hp ?_ (advance_gprs s (s.gpr.set r (s.readCr n)) _)
  rw [hn, Bool.not_true, exec_bind_of_ok (exec_raiseIf_false _ s), exec_bind_of_ok (requirePrivilege_ok hcpl), exec_modify]
  rfl

theorem exec_movToCr_next {t u : State} (hn : s.hasCr n = true) (hcpl : s.cpl = 0) (h : writeCr n (s.reg r) s = .ok ((), t))
    (hend : s.advance t (.movToCr p m n r) = u) : exec (.movToCr p m n r) s = .next u := by
  refine runInstr_ok (i := .movToCr p m n r) hp ?_ hend
  rw [hn, Bool.not_true, exec_bind_of_ok (exec_raiseIf_false _ s), exec_bind_of_ok (requirePrivilege_ok hcpl), h]

theorem exec_movToCr_raises {e : Exn} (hn : s.hasCr n = true) (hcpl : s.cpl = 0) (h : writeCr n (s.reg r) s = .error (.exc e)) :
    exec (.movToCr p m n r) s = takeException e s := by
  refine runInstr_raises (i := .movToCr p m n r) hp ?_
  rw [hn, Bool.not_true, exec_bind_of_ok (exec_raiseIf_false _ s), exec_bind_of_ok (requirePrivilege_ok hcpl), h]

end

/-- Settles O35: the four control registers by their numbers. -/
theorem controlRegisterRead : Obligations.ControlRegisterRead := by
  intro p m r s hp hcpl
  have hcr4 (hpart : s.part.features.cr4 = true) : s.hasCr 4 = true := by simp [State.hasCr, hpart]
  exact ⟨exec_movFromCr_next hp rfl hcpl, exec_movFromCr_next hp rfl hcpl, exec_movFromCr_next hp rfl hcpl,
    fun hpart => exec_movFromCr_next hp (hcr4 hpart) hcpl⟩

/-- Settles O36: the numbers that name no control register are an invalid form of both moves. -/
theorem noSuchControlRegister : Obligations.NoSuchControlRegister := by
  intro p m n r s hp hn
  have hform : (!s.hasCr n) = true := not_hasCr_iff.mpr (by simpa [or_assoc] using hn)
  exact ⟨exec_of_invalidForm (i := .movFromCr p m n r) hp hform, exec_of_invalidForm (i := .movToCr p m n r) hp hform⟩

/-! ### MOV to CR0 (R243) -/

/-- The two combinations of bits that CR0 does not take: PG without PE, and NW without CD. -/
def forbiddenCr0 (v : Word32) : Prop := (bit v 31 = true ∧ bit v 0 = false) ∨ (bit v 30 = false ∧ bit v 29 = true)

theorem writeCr0_raises {v : Word32} (h : forbiddenCr0 v) (s : State) : writeCr0 v s = .error (.exc (.gp 0)) := by
  cases hpg : bit v 31 && !bit v 0 with
  | true => exact exec_bind_of_error (raiseIf_raises hpg)
  | false =>
    have hcd : (!bit v 30 && bit v 29) = true := by
      rcases h with ⟨h31, h0⟩ | ⟨h30, h29⟩
      · simp [h31, h0] at hpg
      · simp [h30, h29]
    rw [writeCr0, hpg, exec_bind_of_ok (exec_raiseIf_false _ s), exec_bind_of_error (raiseIf_raises hcd)]

theorem writeCr0_ok {v : Word32} (h : ¬ forbiddenCr0 v) (s : State) : writeCr0 v s = .ok ((), s.setCr0 (fixCr0 v)) := by
  obtain ⟨hpg, hcd⟩ := not_or.mp h
  have hpg : (bit v 31 && !bit v 0) = false := by simpa using hpg
  have hcd : (!bit v 30 && bit v 29) = false := by simpa using hcd
  rw [writeCr0, hpg, hcd, exec_bind_of_ok (exec_raiseIf_false _ s), exec_bind_of_ok (exec_raiseIf_false _ s), exec_modify]

/-- Settles O37: the checks of `WriteCR0` raise for the two combinations; the flags, the TLB and the level are those of `setCr0`. -/
theorem controlRegister0Written : Obligations.ControlRegister0Written := by
  intro p m r s hp hcpl v i bad
  refine ⟨fun hbad => exec_movToCr_raises hp rfl hcpl (writeCr0_raises hbad s), fun hok => ?_⟩
  have h31 : bit (fixCr0 v) 31 = bit v 31 := bit_fixCr0_flag v (by decide)
  have h0 : bit (fixCr0 v) 0 = bit v 0 := bit_fixCr0_flag v (by decide)
  have hcr0 : (s.advance (s.setCr0 (fixCr0 v)) i).cr0 = fixCr0 v := setCr0_cr0 s _
  refine ⟨_, exec_movToCr_next hp rfl hcpl (writeCr0_ok hok s) rfl, ?frame, ?eip, ?_, ?_, ?_, ?_, ?_, ?_⟩
  case frame =>
    rw [setCr0_eq]
    rfl
  case eip =>
    rw [advance_eip_by_size]
    cases State.codeSize _ <;> rfl
  · exact fun k hk => by rw [hcr0, bit_fixCr0_flag v hk]
  · rw [hcr0, bit_fixCr0_et]
  · exact fun k hk => by rw [hcr0, bit_fixCr0_other v hk]
  · intro hchanged e he
    rw [advance_tlb, setCr0_tlb_of_changed (by rwa [h31, h0])] at he
    exact flushTlb_invalid he
  · exact fun hpg hpe => setCr0_tlb_of_same (h31.trans hpg) (h0.trans hpe)
  · rw [advance_cplField, setCr0_eq, h0]

/-! ### MOV to CR2, CR3 and CR4 (R245, R246) -/

theorem field_cr3Kept (v : Word32) : field (v &&& cr3Kept) 12 20 = field v 12 20 ∧ bit (v &&& cr3Kept) 4 = bit v 4
    ∧ bit (v &&& cr3Kept) 3 = bit v 3 ∧ field (v &&& cr3Kept) 5 7 = 0 ∧ field (v &&& cr3Kept) 0 3 = 0 := by
  have hbase : field cr3Kept 12 20 = BitVec.allOnes 20 := by decide
  have hmiddle : field cr3Kept 5 7 = 0 := by decide
  have hlow : field cr3Kept 0 3 = 0 := by decide
  have h4 : bit cr3Kept 4 = true := by decide
  have h3 : bit cr3Kept 3 = true := by decide
  refine ⟨?_, ?_, ?_, ?_, ?_⟩
  · rw [field_and, hbase, BitVec.and_allOnes]
  · rw [bit_and, h4, Bool.and_true]
  · rw [bit_and, h3, Bool.and_true]
  · rw [field_and, hmiddle]
    exact BitVec.and_zero
  · rw [field_and, hlow]
    exact BitVec.and_zero

/-- Settles O38: every write of CR3 empties the TLB and is masked. -/
theorem controlRegister3Written : Obligations.ControlRegister3Written := by
  intro p m r s hp hcpl
  obtain ⟨hbase, hpcd, hpwt, hmiddle, hlow⟩ := field_cr3Kept (s.reg r)
  refine ⟨_, exec_movToCr_next hp rfl hcpl (exec_modify _ s) (advance_eq _ rfl rfl rfl), rfl, hbase, hpcd, hpwt, hmiddle, hlow,
    fun e he => flushTlb_invalid he, List.length_map ..⟩

/-- CR4 with a new value: a change of PSE or PGE empties the TLB (R246). -/
def State.setCr4 (s : State) (v : Word32) : State :=
  { (if bit v 4 != bit s.cr4 4 || bit v 7 != bit s.cr4 7 then s.flushTlb else s) with cr4 := v }

theorem setCr4_eq (s : State) (v : Word32) : s.setCr4 v = { s with cr4 := v, tlb := (s.setCr4 v).tlb } := by
  unfold State.setCr4
  split <;> rfl

theorem setCr4_tlb_of_changed {s : State} {v : Word32} (h : bit v 4 ≠ bit s.cr4 4 ∨ bit v 7 ≠ bit s.cr4 7) :
    (s.setCr4 v).tlb = s.flushTlb.tlb := by
  unfold State.setCr4
  rw [if_pos (by simpa using h)]

theorem setCr4_tlb_of_same {s : State} {v : Word32} (h4 : bit v 4 = bit s.cr4 4) (h7 : bit v 7 = bit s.cr4 7) :
    (s.setCr4 v).tlb = s.tlb := by
  unfold State.setCr4
  rw [if_neg (by simp [h4, h7])]

theorem writeCr4_eq (v : Word32) (s : State) : writeCr4 v s
    = if v &&& ~~~ cr4Mask s.part.features = 0 then .ok ((), s.setCr4 v) else .error (.exc (.gp 0)) := by
  unfold writeCr4
  rw [exec_bind_of_ok (exec_get s)]
  split
  · next h => rw [h, exec_bind_of_ok (by exact exec_raiseIf_false _ s)]; rfl
  · next h => exact exec_bind_of_error (raiseIf_raises (by simpa using h))

/-- A value that sets only bits the part implements, bit by bit. -/
theorem cr4_fits_iff {f : Features} {v : Word32} : v &&& ~~~ cr4Mask f = 0 ↔ ∀ k, bit v k = true → cr4Bit f k = true := by
  simp only [and_not_eq_zero_iff, bit_cr4Mask]

/-- Settles O39: CR4 takes a value when each of its bits is one that the part implements. -/
theorem controlRegisters2And4Written : Obligations.ControlRegisters2And4Written := by
  intro p m r s hp hcpl v f has
  have hhas : has = cr4Bit f := rfl
  refine ⟨exec_movToCr_next hp rfl hcpl (exec_modify _ s) (advance_eq _ rfl rfl rfl), fun hpart => ?_⟩
  have hcr4 : s.hasCr 4 = true := by simp [State.hasCr, show s.part.features.cr4 = true from hpart]
  rw [hhas]
  refine ⟨fun ⟨k, hk, hnot⟩ => ?raises, fun hfits => ?stores⟩
  case raises =>
    have hbad : ¬ v &&& ~~~ cr4Mask f = 0 := fun h => Bool.false_ne_true (hnot.symm.trans (cr4_fits_iff.mp h k hk))
    exact exec_movToCr_raises hp hcr4 hcpl ((writeCr4_eq v s).trans (if_neg hbad))
  case stores =>
    have hwrite : writeCr4 v s = .ok ((), s.setCr4 v) := (writeCr4_eq v s).trans (if_pos (cr4_fits_iff.mpr hfits))
    refine ⟨{ s.completed (.movToCr p m 4 r) with cr4 := v, tlb := (s.setCr4 v).tlb },
      exec_movToCr_next hp hcr4 hcpl hwrite ?_, rfl, fun hchanged e he => ?_, setCr4_tlb_of_same⟩
    · rw [setCr4_eq]
      exact advance_eq _ rfl rfl rfl
    · exact flushTlb_invalid (setCr4_tlb_of_changed hchanged ▸ he)

/-! ### LMSW and CLTS (R247, R249) -/

/-- LMSW at level 0, in terms of the state that the read of its source leaves. -/
theorem exec_lmsw_next {p : List Prefix} {o : RmOp} {s t : State} {w : Word16} (hp : Plain p) (hcpl : s.cpl = 0)
    (hsource : WordSource p o s w t) :
    exec (.lmsw p o) s = .next (t.advance (t.setCr0 (lmswCr0 t.cr0 w)) (.lmsw p o)) := by
  refine runInstr_ok (i := .lmsw p o) (t := t.setCr0 (lmswCr0 t.cr0 w)) hp ?_ (hsource.registersKept.advance_from _ _)
  rw [exec_bind_of_ok (requirePrivilege_ok hcpl), exec_bind_of_ok hsource.readRm16, exec_modify]

/-- The end of LMSW, which never clears PE. -/
theorem advance_lmsw (t : State) (w : Word16) (i : Instr) : t.advance (t.setCr0 (lmswCr0 t.cr0 w)) i
    = { t.completed i with
        cr0 := lmswCr0 t.cr0 w
        tlb := (t.setCr0 (lmswCr0 t.cr0 w)).tlb
        cplField := (t.setCr0 (lmswCr0 t.cr0 w)).cplField } := by
  rw [advance_of_pe i (legalKept_lmsw t w).pe (by rw [State.vm, setCr0_eflags, State.vm]) (by rw [setCr0_eq]), setCr0_eq]
  rfl

/-- Settles O40: the source is read, then `setCr0` with the bits of `lmswCr0`. -/
theorem machineStatusWordLoaded : Obligations.MachineStatusWordLoaded := by
  intro p o s hp
  refine ⟨fun hcpl => runInstr_raises (i := .lmsw p o) hp (exec_bind_of_error (requirePrivilege_raises hcpl)),
    fun t w hcpl hsource => ?_⟩
  have hkept := hsource.registersKept
  have hcr0 : t.cr0 = s.cr0 := by rw [hkept]
  have hlevel : t.cplField = s.cplField := by rw [hkept]
  have hpe : t.pe = s.pe := by rw [State.pe, hcr0, State.pe]
  have hpg : bit (lmswCr0 t.cr0 w) 31 = t.pg := bit_lmswCr0_above _ _ (by decide)
  have hbit0 : bit (lmswCr0 t.cr0 w) 0 = (bit w 0 || s.pe) := by rw [bit_lmswCr0_pe, hcr0, State.pe]
  refine ⟨_, (exec_lmsw_next hp hcpl hsource).trans (congrArg _ (advance_lmsw t w _)), rfl, bit_lmswCr0 _ _ (by decide) (by decide),
    bit_lmswCr0 _ _ (by decide) (by decide), bit_lmswCr0 _ _ (by decide) (by decide), hbit0, fun k hk => ?_, fun hsame => ?_,
    fun hset hreal => ?_⟩
  · exact (bit_lmswCr0_above _ _ hk).trans (congrArg (bit · k) hcr0)
  · have hsame0 : bit (lmswCr0 t.cr0 w) 0 = t.pe := by
      rw [hbit0, hpe]
      rcases hsame with h | h <;> simp [h]
    refine ⟨setCr0_tlb_of_same hpg hsame0, ?_⟩
    rw [setCr0_eq, hsame0]
    exact (if_neg fun ⟨hoff, hon⟩ => Bool.false_ne_true (hoff.symm.trans hon)).trans hlevel
  · have hset0 : bit (lmswCr0 t.cr0 w) 0 = true := by rw [hbit0, hset, Bool.true_or]
    have hreal0 : t.pe = false := hpe.trans hreal
    refine ⟨fun e he => flushTlb_invalid (s := t) ?_, ?_⟩
    · exact setCr0_tlb_of_changed (.inr (by rw [hset0, hreal0]; exact Bool.noConfusion)) ▸ he
    · rw [setCr0_eq]
      exact if_pos ⟨hreal0, hset0⟩

/-- Settles O41: CLTS leaves PE alone. -/
theorem taskSwitchedCleared : Obligations.TaskSwitchedCleared := by
  refine ⟨rfl, fun p s hp => ⟨fun hcpl => ?_, fun hcpl => ?_⟩⟩
  · refine runInstr_ok (i := .clts p) (t := { s with cr0 := setBit s.cr0 3 false }) hp ?_
      (advance_of_pe _ (by simp [State.pe, bit_setBit]) rfl rfl)
    rw [exec_bind_of_ok (requirePrivilege_ok hcpl), exec_modify]
  · exact runInstr_raises (i := .clts p) hp (exec_bind_of_error (requirePrivilege_raises hcpl))

end Sys2Proof.Machine
end

section
/-! PROOFS. MOV to and from debug registers (42_debug_and_test_register_instructions.md R260 to R262). -/

namespace Sys2Proof.Machine

/-! ### The checks of an access -/

/-- What DR7.GD raises: #DB with BD, and Bn of disabled conditions as the free value says (60 R332, U13). -/
def State.guardTrap (s : State) : Exn := .db (dr6Bd ||| s.bFlags 0 s.pending.disabled) false

/-- At level 0 the guard decides on an access to a register that is there. -/
theorem checkDebugAccess_level0 {n : BitVec 3} {s : State} (hreg : s.noDebugReg n = false) (hcpl : s.cpl = 0) :
    checkDebugAccess n s = raiseIf s.gd s.guardTrap s := by
  unfold checkDebugAccess
  rw [exec_bind_of_ok (exec_get s), hreg, exec_bind_of_ok (exec_raiseIf_false _ s), exec_bind_of_ok (requirePrivilege_ok hcpl)]
  rfl

/-- Of the number, the checks read whether it names a register. -/
theorem checkDebugAccess_congr {n k : BitVec 3} {s : State} (h : s.noDebugReg n = s.noDebugReg k) :
    checkDebugAccess n s = checkDebugAccess k s := by
  unfold checkDebugAccess
  rw [exec_bind_of_ok (exec_get s), exec_bind_of_ok (exec_get s), h]

/-! ### The moves at level 0 -/

section
variable {p : List Prefix} {m : BitVec 2} {n : BitVec 3} {r : Gpr} {s : State} (hp : Plain p) (hreg : s.noDebugReg n = false)
  (hcpl : s.cpl = 0)
include hp hreg hcpl

theorem exec_movFromDr_next (hgd : s.gd = false) :
    exec (.movFromDr p m n r) s = .next { s.completed (.movFromDr p m n r) with gpr := s.gpr.set r (s.readDr n) } := by
  refine runInstr_ok (i := .movFromDr p m n r) hp ?_ (advance_gprs s (s.gpr.set r (s.readDr n)) _)
  have hcheck : checkDebugAccess n s = .ok ((), s) := by rw [checkDebugAccess_level0 hreg hcpl, hgd, exec_raiseIf_false]
  rw [exec_bind_of_ok hcheck, exec_modify]
  rfl

theorem exec_movToDr_next (hgd : s.gd = false) {u : State} (hend : s.advance (s.writeDr n (s.reg r)) (.movToDr p m n r) = u) :
    exec (.movToDr p m n r) s = .next u := by
  refine runInstr_ok (i := .movToDr p m n r) hp ?_ hend
  have hcheck : checkDebugAccess n s = .ok ((), s) := by rw [checkDebugAccess_level0 hreg hcpl, hgd, exec_raiseIf_false]
  rw [exec_bind_of_ok hcheck, exec_modify]

theorem exec_movDr_guarded (hgd : s.gd = true) : exec (.movFromDr p m n r) s = takeException s.guardTrap s
    ∧ exec (.movToDr p m n r) s = takeException s.guardTrap s := by
  have hcheck : checkDebugAccess n s = .error (.exc s.guardTrap) := by
    rw [checkDebugAccess_level0 hreg hcpl, hgd, exec_raiseIf_true]
  exact ⟨runInstr_raises (i := .movFromDr p m n r) hp (exec_bind_of_error hcheck),
    runInstr_raises (i := .movToDr p m n r) hp (exec_bind_of_error hcheck)⟩

end

/-- Settles O42: each number selects its register in `readDr` and `writeDr`; the pattern of D18 is that of `readDr6` and `readDr7`. -/
theorem debugRegisterMoves : Obligations.DebugRegisterMoves := by
  intro p m r s hp hcpl hgd
  refine ⟨fun n v hread => ?_, ?_, ?_, ?_, ?_, ?_, ?_⟩
  · obtain ⟨rfl, rfl⟩ | ⟨rfl, rfl⟩ | ⟨rfl, rfl⟩ | ⟨rfl, rfl⟩ | ⟨rfl, rfl⟩ | ⟨rfl, rfl⟩ := hread
      <;> exact exec_movFromDr_next hp rfl hcpl hgd
  all_goals exact exec_movToDr_next hp rfl hcpl hgd (advance_eq _ rfl rfl rfl)

/-! ### DR4 and DR5 (R262) -/

/-- Two instructions without repeat or LOCK bytes, of one length, whose bodies do the same, do the same. -/
theorem runInstr_congr {i j : Instr} {b c : Exec Unit} {s : State} (hi : Plain i.prefixes) (hj : Plain j.prefixes)
    (hsize : i.size = j.size) (h : b s = c s) : runInstr i b s = runInstr j c s := by
  have hlen : i.length = j.length := (encode_length i).trans (hsize.trans (encode_length j).symm)
  have hend (t : State) : s.advance t i = s.advance t j := by unfold State.advance; rw [hlen]
  unfold runInstr
  simp only [exec_run, exec_bind_of_ok (checkPrefixes_plain hi s), exec_bind_of_ok (checkPrefixes_plain hj s), exec_bind, h, hend]

/-- Two numbers that name one debug register, both or neither of them usable. -/
theorem exec_movDr_alias {p : List Prefix} {m : BitVec 2} {n k : BitVec 3} {r : Gpr} {s : State} (hp : Plain p)
    (hreg : s.noDebugReg n = s.noDebugReg k) (halias : debugAlias n = debugAlias k) :
    exec (.movFromDr p m n r) s = exec (.movFromDr p m k r) s ∧ exec (.movToDr p m n r) s = exec (.movToDr p m k r) s := by
  have hread (t : State) : t.readDr n = t.readDr k := by unfold State.readDr; rw [halias]
  have hwrite (t : State) (v : Word32) : t.writeDr n v = t.writeDr k v := by unfold State.writeDr; rw [halias]
  constructor
  · refine runInstr_congr (i := .movFromDr p m n r) (j := .movFromDr p m k r) hp hp rfl ?_
    simp only [exec_bind, checkDebugAccess_congr hreg, hread]
  · refine runInstr_congr (i := .movToDr p m n r) (j := .movToDr p m k r) hp hp rfl ?_
    simp only [exec_bind, checkDebugAccess_congr hreg, hwrite]

/-- Settles O43: with DE the two numbers are an invalid form, without it they are aliases. -/
theorem debugRegisterAliases : Obligations.DebugRegisterAliases := by
  intro p m r s hp
  refine ⟨fun hde hpart n hn => ?_, fun hoff => ?_⟩
  · have hform : s.noDebugReg n = true := noDebugReg_iff.mpr ⟨hn, hde, hpart⟩
    exact ⟨exec_of_invalidForm (i := .movFromDr p m n r) hp hform, exec_of_invalidForm (i := .movToDr p m n r) hp hform⟩
  · have hde : s.de = false := by unfold State.de; rcases hoff with h | h <;> simp [h]
    have hreg (n : BitVec 3) : s.noDebugReg n = false := by simp [State.noDebugReg, hde]
    obtain ⟨hfrom4, hto4⟩ := exec_movDr_alias (m := m) (n := 4) (k := 6) (r := r) hp ((hreg 4).trans (hreg 6).symm) rfl
    obtain ⟨hfrom5, hto5⟩ := exec_movDr_alias (m := m) (n := 5) (k := 7) (r := r) hp ((hreg 5).trans (hreg 7).symm) rfl
    exact ⟨hfrom4, hto4, hfrom5, hto5⟩

end Sys2Proof.Machine
end

section
/-! PROOFS. DR7.GD (42_debug_and_test_register_instructions.md R264; 60_exceptions.md R332, R333): what the guard raises, and that of
all that delivery does only the entry to the handler of #DB writes it. -/

namespace Sys2Proof.Machine

/-! ### The flags of the guard -/

theorem bits4_bit : ∀ v : BitVec 4, bits4 (bit v 0) (bit v 1) (bit v 2) (bit v 3) = v := by decide

/-- With no enabled condition detected, Bn are those of the disabled conditions that the free value keeps (U13). -/
theorem bFlags_zero (s : State) (disabled : BitVec 4) :
    s.bFlags 0 disabled = zext32 (Config.breakpointDraw s.draws &&& disabled) := by
  have hfree (n : Nat) : (bit (0 : BitVec 4) n || (bit disabled n && bit (Config.breakpointDraw s.draws) n))
      = bit (Config.breakpointDraw s.draws &&& disabled) n := by
    rw [bit_and, Bool.and_comm]
    simp [bit]
  simp only [State.bFlags, hfree, bits4_bit]

/-- All flags that the guard sets are named ones. -/
theorem guardFlags_named (b : BitVec 4) : (0x2000 ||| zext32 b) &&& dr6Named = 0x2000 ||| zext32 b :=
  (by decide : ∀ b : BitVec 4, (0x2000 ||| zext32 b) &&& dr6Named = 0x2000 ||| zext32 b) b

/-! ### What leaves the guard alone -/

/-- DR7.GD is the same in both states. (It is not `EntryClosed`: that takes in the clearing of GD on entry to a handler, which here is
told from what comes before it.) -/
def GuardKept (s t : State) : Prop := t.gd = s.gd

theorem guardKept_mmuClosed : MmuClosed GuardKept where
  frame := ⟨fun _ => rfl, fun _ _ _ h1 h2 => h2.trans h1⟩
  store s pas vs := congrArg (bit · 13) (storeBytes_dr7 s pas vs)
  tlb _ _ _ := rfl
  draws _ _ := rfl

theorem guardKept_frame : IsFrame GuardKept := guardKept_mmuClosed.frame

/-- An update that leaves DR7 alone. -/
theorem guardKept_modify {f : State → State} (h : ∀ s, (f s).dr7 = s.dr7) : Keeps GuardKept (modify f : Exec Unit) :=
  keeps_modify fun s => congrArg (bit · 13) (h s)

theorem setStackTop_guard (s : State) (off : Word32) : GuardKept s (s.setStackTop off) := by
  unfold State.setStackTop
  split <;> rfl

theorem guardKept_pushFrame (z : OpSize) (v : Word32) : Keeps GuardKept (pushFrame z v) := by
  refine keeps_bind guardKept_frame (keeps_get guardKept_frame) fun s => ?_
  refine keeps_bind guardKept_frame (keeps_raiseIf guardKept_frame _ _) fun _ => ?_
  refine keeps_bind guardKept_frame (keeps_memWrite guardKept_mmuClosed _ _ _ _) fun _ => ?_
  exact keeps_modify fun t => setStackTop_guard t _

theorem guardKept_pushCode (z : OpSize) (c : Option Word32) : Keeps GuardKept (pushCode z c) := by
  cases c with
  | none => exact keeps_pure guardKept_frame ()
  | some c => exact guardKept_pushFrame z c

theorem guardKept_loadSeg (r : SegReg) (sel : Word16) (c : SegCache) : Keeps GuardKept (loadSeg r sel c) :=
  keeps_bind guardKept_frame (keeps_onlyIf guardKept_frame _ (keeps_updateType guardKept_mmuClosed sel 0 true)) fun _ =>
    guardKept_modify fun _ => rfl

theorem guardKept_pushV86Data (z : OpSize) (old : Segs) : Keeps GuardKept (pushV86Data z old) :=
  keeps_bind guardKept_frame (guardKept_pushFrame z _) fun _ => keeps_bind guardKept_frame (guardKept_pushFrame z _) fun _ =>
    keeps_bind guardKept_frame (guardKept_pushFrame z _) fun _ => keeps_bind guardKept_frame (guardKept_pushFrame z _) fun _ =>
      guardKept_modify fun _ => rfl

theorem guardKept_enterInner (z : OpSize) (n : BitVec 2) (ext : Word32) : Keeps GuardKept (enterInner z n ext) := by
  refine keeps_bind guardKept_frame (keeps_get guardKept_frame) fun s => ?_
  refine keeps_bind guardKept_frame (keeps_innerStack guardKept_mmuClosed n ext) fun stack => ?_
  refine keeps_bind guardKept_frame (keeps_innerStackSegment guardKept_mmuClosed stack.1 n ext) fun d => ?_
  refine keeps_bind guardKept_frame (guardKept_modify fun _ => rfl) fun _ => ?_
  refine keeps_bind guardKept_frame (guardKept_loadSeg .ss stack.1 d) fun _ => ?_
  refine keeps_bind guardKept_frame (guardKept_modify fun _ => rfl) fun _ => ?_
  refine keeps_bind guardKept_frame (keeps_onlyIf guardKept_frame _ (guardKept_pushV86Data z _)) fun _ => ?_
  exact keeps_bind guardKept_frame (guardKept_pushFrame z _) fun _ => guardKept_pushFrame z _

/-! ### The task switch -/

/-- A task switch clears the local enables of DR7 and no other bit (10_state.md R101). -/
theorem enterTask_guard (s : State) (kind : SwitchKind) (c : TaskContext) : GuardKept s (s.enterTask kind c) := by
  show bit (s.dr7 &&& ~~~ dr7Local) 13 = bit s.dr7 13
  have hout : bit dr7Local 13 = false := by decide
  rw [bit_and, bit_not _ (by decide), hout, Bool.not_false, Bool.and_true]

theorem guardKept_loadTaskLdt (sel : Word16) : Keeps GuardKept (loadTaskLdt sel) :=
  keeps_ite (guardKept_modify fun _ => rfl) <|
    keeps_bind guardKept_frame (keeps_raiseIf guardKept_frame _ _) fun _ =>
    keeps_bind guardKept_frame (keeps_readDescriptor guardKept_mmuClosed _ _) fun _ =>
    keeps_bind guardKept_frame (keeps_raiseIf guardKept_frame _ _) fun _ => guardKept_modify fun _ => rfl

theorem guardKept_loadTaskCode (sel : Word16) : Keeps GuardKept (loadTaskCode sel) :=
  keeps_bind guardKept_frame (keeps_raiseIf guardKept_frame _ _) fun _ =>
    keeps_bind guardKept_frame (keeps_readDescriptor guardKept_mmuClosed _ _) fun d =>
    keeps_bind guardKept_frame (keeps_raiseIf guardKept_frame _ _) fun _ =>
    keeps_bind guardKept_frame (keeps_raiseIf guardKept_frame _ _) fun _ =>
    keeps_bind guardKept_frame (guardKept_modify fun _ => rfl) fun _ => guardKept_loadSeg .cs sel d

theorem guardKept_loadTaskStack (sel : Word16) : Keeps GuardKept (loadTaskStack sel) :=
  keeps_bind guardKept_frame (keeps_raiseIf guardKept_frame _ _) fun _ =>
    keeps_bind guardKept_frame (keeps_readDescriptor guardKept_mmuClosed _ _) fun d =>
    keeps_bind guardKept_frame (keeps_get guardKept_frame) fun _ =>
    keeps_bind guardKept_frame (keeps_raiseIf guardKept_frame _ _) fun _ =>
    keeps_bind guardKept_frame (keeps_raiseIf guardKept_frame _ _) fun _ => guardKept_loadSeg .ss sel d

theorem guardKept_loadTaskData (r : SegReg) (sel : Word16) : Keeps GuardKept (loadTaskData r sel) :=
  keeps_ite (guardKept_modify fun _ => rfl) <|
    keeps_bind guardKept_frame (keeps_readDescriptor guardKept_mmuClosed _ _) fun d =>
    keeps_bind guardKept_frame (keeps_get guardKept_frame) fun _ =>
    keeps_bind guardKept_frame (keeps_raiseIf guardKept_frame _ _) fun _ =>
    keeps_bind guardKept_frame (keeps_raiseIf guardKept_frame _ _) fun _ => guardKept_loadSeg r sel d

theorem guardKept_loadTaskSegments (c : TaskContext) : Keeps GuardKept (loadTaskSegments c) := by
  refine keeps_get_bind fun s a t ht => ?_
  split at ht
  · cases ht
    rfl
  · refine (?_ : Keeps GuardKept _) s a t ht
    refine keeps_bind guardKept_frame (guardKept_loadTaskCode _) fun _ => ?_
    refine keeps_bind guardKept_frame (guardKept_loadTaskStack _) fun _ => ?_
    refine keeps_bind guardKept_frame (guardKept_loadTaskData _ _) fun _ => ?_
    refine keeps_bind guardKept_frame (guardKept_loadTaskData _ _) fun _ => ?_
    exact keeps_bind guardKept_frame (guardKept_loadTaskData _ _) fun _ => guardKept_loadTaskData _ _

theorem guardKept_switchBody (sel : Word16) (d : SegCache) (kind : SwitchKind) (eip eflags : Word32) :
    Keeps GuardKept (switchBody sel d kind eip eflags) := by
  refine keeps_bind guardKept_frame (keeps_get guardKept_frame) fun s => ?_
  refine keeps_bind guardKept_frame (keeps_saveContext guardKept_mmuClosed _ _ _) fun _ => ?_
  refine keeps_bind guardKept_frame (keeps_markBusy guardKept_mmuClosed _ _) fun _ => ?_
  refine keeps_bind guardKept_frame (keeps_readContext guardKept_mmuClosed _) fun c => ?_
  refine keeps_bind guardKept_frame (keeps_onlyIf guardKept_frame _ (keeps_sysWrite guardKept_mmuClosed _ _ _)) fun _ => ?_
  refine keeps_bind guardKept_frame (keeps_modify fun t => enterTask_guard { t with tr := _ } kind c) fun _ => ?_
  refine keeps_bind guardKept_frame (guardKept_loadTaskLdt _) fun _ => ?_
  exact keeps_bind guardKept_frame (guardKept_loadTaskSegments c) fun _ => guardKept_modify fun _ => rfl

theorem guardKept_taskSwitch (sel : Word16) (d : SegCache) (kind : SwitchKind) (eip eflags ext : Word32) :
    Keeps GuardKept (taskSwitch sel d kind eip eflags ext) :=
  keeps_bind guardKept_frame (keeps_get guardKept_frame) fun _ =>
    keeps_bind guardKept_frame (keeps_raiseIf guardKept_frame _ _) fun _ =>
    keeps_bind guardKept_frame (keeps_raiseIf guardKept_frame _ _) fun _ =>
    keeps_refuseFaults (guardKept_switchBody sel d kind eip eflags)

/-! ### Delivery -/

/-- `t` is in the handler of event `ev` that `s` is not in: GD is clear in the handler of #DB, and as it was in any other. -/
def GuardEntered (ev : Event) (s t : State) : Prop := t.gd = if ev.vector = 1 then false else s.gd

theorem enterHandler_guard (s : State) (ev : Event) : GuardEntered ev s (s.enterHandler ev) := by
  unfold State.enterHandler GuardEntered
  split
  · exact (bit_setBit ..).trans (if_pos ⟨rfl, by decide⟩)
  · rfl

/-- The entry to a handler after an update that leaves DR7 alone. -/
theorem guardEntered_modify {ev : Event} {f : State → State} (h : ∀ s, (f s).dr7 = s.dr7) :
    Keeps (GuardEntered ev) (modify fun s => (f s).enterHandler ev : Exec Unit) := by
  refine keeps_modify fun s => (enterHandler_guard (f s) ev).trans ?_
  rw [State.gd, h, State.gd]

section
variable {ev : Event} {α β : Type}

/-- What comes before the entry to the handler leaves the guard alone. -/
theorem guardEntered_bind {m : Exec α} {f : α → Exec β} (hm : Keeps GuardKept m) (hf : ∀ a, Keeps (GuardEntered ev) (f a)) :
    Keeps (GuardEntered ev) (m >>= f) := by
  intro s b u hu
  obtain ⟨a, t, hfirst, hrest⟩ := exec_bind_ok hu
  have hkept : t.gd = s.gd := hm s a t hfirst
  have hentered := hf a t b u hrest
  rwa [GuardEntered, hkept] at hentered

/-- Nothing comes after it. -/
theorem guardEntered_bind_pure {m : Exec α} (hm : Keeps (GuardEntered ev) m) (b : β) :
    Keeps (GuardEntered ev) (m >>= fun _ => pure b) := by
  intro s b u hu
  obtain ⟨a, t, hfirst, hrest⟩ := exec_bind_ok hu
  cases hrest
  exact hm s a u hfirst

end

theorem guardEntered_deliverGate (ev : Event) (g : Gate) : Keeps (GuardEntered ev) (deliverGate ev g) := by
  refine guardEntered_bind (keeps_get guardKept_frame) fun s => ?_
  refine guardEntered_bind (keeps_handlerCode guardKept_mmuClosed _ _) fun d => ?_
  refine guardEntered_bind (keeps_onlyIf guardKept_frame _ (guardKept_enterInner _ _ _)) fun _ => ?_
  refine guardEntered_bind (guardKept_pushFrame _ _) fun _ => ?_
  refine guardEntered_bind (guardKept_pushFrame _ _) fun _ => ?_
  refine guardEntered_bind (guardKept_pushFrame _ _) fun _ => ?_
  refine guardEntered_bind (guardKept_pushCode _ _) fun _ => ?_
  refine guardEntered_bind (keeps_get guardKept_frame) fun t => ?_
  exact guardEntered_bind (guardKept_loadSeg _ _ _) fun _ => guardEntered_modify fun _ => rfl

theorem guardEntered_deliverTask (ev : Event) (g : Gate) : Keeps (GuardEntered ev) (deliverTask ev g) := by
  refine guardEntered_bind (keeps_get guardKept_frame) fun s => ?_
  refine guardEntered_bind (keeps_findTss guardKept_mmuClosed _ _ _ _) fun d => ?_
  exact guardEntered_bind (guardKept_taskSwitch _ _ _ _ _ _) fun _ => guardEntered_modify fun _ => rfl

theorem guardEntered_deliverProtected (ev : Event) : Keeps (GuardEntered ev) (deliverProtected ev) := by
  refine guardEntered_bind (keeps_get guardKept_frame) fun s => ?_
  refine guardEntered_bind (keeps_raiseIf guardKept_frame _ _) fun _ => ?_
  refine guardEntered_bind (keeps_sysRead guardKept_mmuClosed _ _) fun v => ?_
  refine guardEntered_bind (keeps_raiseIf guardKept_frame _ _) fun _ => ?_
  refine guardEntered_bind (keeps_raiseIf guardKept_frame _ _) fun _ => ?_
  refine guardEntered_bind (keeps_raiseIf guardKept_frame _ _) fun _ => ?_
  exact keeps_ite (guardEntered_bind_pure (guardEntered_deliverTask ev _) _) (guardEntered_bind_pure (guardEntered_deliverGate ev _) _)

theorem guardEntered_deliverReal (ev : Event) : Keeps (GuardEntered ev) (deliverReal ev) := by
  refine guardEntered_bind (keeps_get guardKept_frame) fun s => ?_
  refine guardEntered_bind (keeps_raiseIf guardKept_frame _ _) fun _ => ?_
  refine guardEntered_bind (keeps_sysRead guardKept_mmuClosed _ _) fun v => ?_
  refine guardEntered_bind (guardKept_pushFrame _ _) fun _ => ?_
  refine guardEntered_bind (guardKept_pushFrame _ _) fun _ => ?_
  exact guardEntered_bind (guardKept_pushFrame _ _) fun _ => guardEntered_modify fun _ => rfl

/-- Delivery ends in one entry to the handler, and nothing before it writes GD (60 R333). -/
theorem guardEntered_deliver (ev : Event) : Keeps (GuardEntered ev) (deliver ev) :=
  guardEntered_bind (keeps_get guardKept_frame) fun _ =>
    keeps_ite (guardEntered_deliverProtected ev) (guardEntered_bind_pure (guardEntered_deliverReal ev) _)

/-- Settles O44: the guard's trap with the disabled conditions that the free value keeps, and the entry to the handler. -/
theorem debugGuard : Obligations.DebugGuard := by
  refine ⟨fun p m n r s hp hcpl hreg hgd => ?_, fun ev c s t => guardEntered_deliver ev s c t⟩
  have htrap : s.guardTrap = .db (0x2000 ||| zext32 (Config.breakpointDraw s.draws &&& s.pending.disabled)) false := by
    rw [State.guardTrap, bFlags_zero, dr6Bd]
  obtain ⟨hfrom, hto⟩ := exec_movDr_guarded (m := m) (r := r) hp hreg hcpl hgd
  refine ⟨Config.breakpointDraw s.draws &&& s.pending.disabled, ?_, htrap ▸ hfrom, htrap ▸ hto, ?_⟩
  · rw [BitVec.and_assoc, BitVec.and_self]
  · show s.dr6 ||| (_ &&& dr6Named) = _
    rw [guardFlags_named, BitVec.or_assoc]

end Sys2Proof.Machine
end

section
/-! PROOFS. MOV to and from test registers (42_debug_and_test_register_instructions.md R265 to R269). -/

namespace Sys2Proof.Machine

/-! ### The moves at level 0 -/

/-- What a write of TR6 leaves before its command begins (R266). -/
def State.withTr6 (s : State) (v : Word32) : State := { s with tr6 := v &&& tr6Named }

section
variable {p : List Prefix} {m : BitVec 2} {n : BitVec 3} {r : Gpr} {s : State} (hp : Plain p)
include hp

theorem exec_movTr_refused (hn : noTestReg n = true) : exec (.movFromTr p m n r) s = .refused .noTestRegister
    ∧ exec (.movToTr p m n r) s = .refused .noTestRegister := by
  have hcheck : refuseIf (noTestReg n) .noTestRegister s = .error (.refused .noTestRegister) := by rw [hn, exec_refuseIf_true]
  exact ⟨runInstr_refused (i := .movFromTr p m n r) hp (exec_bind_of_error hcheck),
    runInstr_refused (i := .movToTr p m n r) hp (exec_bind_of_error hcheck)⟩

variable (hn : noTestReg n = false) (hcpl : s.cpl = 0)
include hn hcpl

theorem exec_movFromTr_next : exec (.movFromTr p m n r) s = .next { s.completed (.movFromTr p m n r) with
    gpr := s.gpr.set r (if n = 6 then s.tr6 else s.tr7) } := by
  refine runInstr_ok (i := .movFromTr p m n r) hp ?_ (advance_gprs s (s.gpr.set r (if n = 6 then s.tr6 else s.tr7)) _)
  rw [hn, exec_bind_of_ok (exec_refuseIf_false _ s), exec_bind_of_ok (requirePrivilege_ok hcpl), exec_modify]
  rfl

theorem exec_movToTr_next {t u : State} (h : writeTestReg n (s.reg r) s = .ok ((), t))
    (hend : s.advance t (.movToTr p m n r) = u) : exec (.movToTr p m n r) s = .next u := by
  refine runInstr_ok (i := .movToTr p m n r) hp ?_ hend
  rw [hn, exec_bind_of_ok (exec_refuseIf_false _ s), exec_bind_of_ok (requirePrivilege_ok hcpl), h]

theorem exec_movToTr_refused {e : Refusal} (h : writeTestReg n (s.reg r) s = .error (.refused e)) :
    exec (.movToTr p m n r) s = .refused e := by
  refine runInstr_refused (i := .movToTr p m n r) hp ?_
  rw [hn, exec_bind_of_ok (exec_refuseIf_false _ s), exec_bind_of_ok (requirePrivilege_ok hcpl), h]

end

/-- Settles O45: TR6 and TR7 are the numbers that `noTestReg` lets pass; a write of TR7 is the whole of its instruction. -/
theorem testRegisterMoves : Obligations.TestRegisterMoves := by
  intro p m n r s hp
  refine ⟨fun hcpl => ⟨exec_movFromTr_next hp rfl hcpl, exec_movFromTr_next hp rfl hcpl, ?_⟩, fun h6 h7 => ?_⟩
  · exact exec_movToTr_next hp rfl hcpl (t := { s with tr7 := s.reg r &&& tr7Named }) rfl (advance_eq _ rfl rfl rfl)
  · exact exec_movTr_refused hp (Bool.and_eq_true_iff.mpr ⟨bne_iff_ne.mpr h6, bne_iff_ne.mpr h7⟩)

/-! ### The commands of TR6 (R266) -/

/-- A write of TR6 with C = 0 is a TLB write. -/
theorem writeTestReg_tlbWrite {v : Word32} (h : bit v 0 = false) (s : State) : writeTestReg 6 v s = tlbWrite (s.withTr6 v) := by
  show (if bit v 0 then tlbRead else tlbWrite) (s.withTr6 v) = _
  rw [h]
  rfl

/-- A write of TR6 with C = 1 is a TLB lookup. -/
theorem writeTestReg_tlbRead {v : Word32} (h : bit v 0 = true) (s : State) : writeTestReg 6 v s = tlbRead (s.withTr6 v) := by
  show (if bit v 0 then tlbRead else tlbWrite) (s.withTr6 v) = _
  rw [h]
  rfl

/-- TR6 holds the bits that the commands read. -/
theorem bit_tr6Named (v : Word32) {k : Nat} (hk : k ∈ [0, 5, 6, 7, 8, 9, 10, 11]) : bit (v &&& tr6Named) k = bit v k := by
  have hnamed : ∀ k ∈ [0, 5, 6, 7, 8, 9, 10, 11], bit tr6Named k = true := by decide
  rw [bit_and, hnamed k hk, Bool.and_true]

theorem tr6Linear_tr6Named (v : Word32) : tr6Linear (v &&& tr6Named) = field v 12 20 := by
  have hnamed : field tr6Named 12 20 = BitVec.allOnes 20 := by decide
  rw [tr6Linear, field_and, hnamed, BitVec.and_allOnes]

/-! ### The TLB after one entry is replaced (10_state.md R111; 20_memory.md R169) -/

theorem tlbSlot_lt (s : State) (b : BitVec 2) (page : BitVec 20) : s.tlbSlot b page < 32 := by
  unfold State.tlbSlot
  omega

theorem tlbSlot_inj {s : State} {b c : BitVec 2} {page : BitVec 20} (h : s.tlbSlot b page = s.tlbSlot c page) : b = c := by
  unfold State.tlbSlot at h
  exact BitVec.eq_of_toNat_eq (by omega)

theorem tlbEntry_setTlb {s : State} {page : BitVec 20} (hlen : s.tlb.length = 32) (b c : BitVec 2) (e : TlbEntry) :
    (s.setTlb b page e).tlbEntry c page = if c = b then e else s.tlbEntry c page := by
  have hslot : (s.setTlb b page e).tlbEntry c page = (s.tlb.set (s.tlbSlot b page) e).getD (s.tlbSlot c page) .invalid := rfl
  rw [hslot]
  split
  · next h =>
    have hlt : s.tlbSlot b page < s.tlb.length := hlen ▸ tlbSlot_lt s b page
    rw [h, List.getD_eq_getElem?_getD, List.getElem?_set_self hlt, Option.getD_some]
  · next h =>
    have hne : s.tlbSlot b page ≠ s.tlbSlot c page := fun heq => h (tlbSlot_inj heq).symm
    rw [List.getD_eq_getElem?_getD, List.getElem?_set_ne hne, ← List.getD_eq_getElem?_getD, State.tlbEntry]

/-- A valid entry of its page is the only one found, where no other block holds the page. -/
theorem tlbHits_setTlb {s : State} {page : BitVec 20} {b : BitVec 2} {e : TlbEntry} (hlen : s.tlb.length = 32) (hv : e.v = true)
    (hlin : e.lin = page) (halone : ∀ c, c ∈ s.tlbHits page → c = b) : (s.setTlb b page e).tlbHits page = [b] := by
  have hfound (c : BitVec 2) : (((s.setTlb b page e).tlbEntry c page).v && ((s.setTlb b page e).tlbEntry c page).lin == page)
      = (c == b) := by
    rw [tlbEntry_setTlb hlen]
    split
    · next h => simp [h, hv, hlin]
    · next h =>
      have hblock : ∀ c : BitVec 2, c ∈ ([0, 1, 2, 3] : List (BitVec 2)) := by decide
      rw [beq_eq_false_iff_ne.mpr h]
      exact Bool.eq_false_of_not_eq_true fun hhit => h (halone c (List.mem_filter.mpr ⟨hblock c, hhit⟩))
  unfold State.tlbHits
  simp only [hfound]
  exact (by decide : ∀ b : BitVec 2, [0, 1, 2, 3].filter (· == b) = [b]) b

/-- What is found for a page depends on the TLB and on the part. -/
theorem tlbHits_congr {s t : State} (htlb : t.tlb = s.tlb) (hpart : t.part = s.part) (page : BitVec 20) :
    t.tlbHits page = s.tlbHits page ∧ ∀ b, t.tlbEntry b page = s.tlbEntry b page := by
  have hentry (b : BitVec 2) : t.tlbEntry b page = s.tlbEntry b page := by
    unfold State.tlbEntry State.tlbSlot
    rw [htlb, hpart]
  exact ⟨by simp only [State.tlbHits, hentry], hentry⟩

/-! ### TLB write (R267, R268) -/

theorem tlbWrite_refused {s : State} (h : bit s.tr7 4 = false) : tlbWrite s = .error (.refused .tlbWriteWithoutHt) := by
  unfold tlbWrite
  rw [exec_bind_of_ok (exec_get s), h]
  rfl

theorem tlbWrite_ok {s : State} (h : bit s.tr7 4 = true) : tlbWrite s = .ok ((), ({ s with draws := s.draws + 1 } : State).setTlb
    (field s.tr7 2 2) (tr6Linear s.tr6) (writtenEntry s.tr6 s.tr7 (Config.tlbWrittenAttr s.draws))) := by
  unfold tlbWrite
  rw [exec_bind_of_ok (exec_get s), h]
  rfl

theorem pairValue_of_ne {x xn : Bool} (h : x ≠ xn) (free : Bool) : pairValue x xn free = x := by
  rw [pairValue, if_neg (by simpa using h)]

theorem ofBool_bit_field {w : Nat} (v : BitVec w) (lo : Nat) {len k : Nat} (hk : k < len) :
    BitVec.ofBool (bit (field v lo len) k) = field v (lo + k) 1 := by
  refine BitVec.eq_of_getLsbD_eq fun j hj => ?_
  rw [BitVec.getLsbD_ofBool, bit, getLsbD_field, getLsbD_field]
  simp [Nat.lt_one_iff.mp hj, hk]

/-- The index is the three lowest bits of the page number by default (92 section 2). -/
theorem tlbIndex_default (v : Word32) : tlbIndex { b0 := 0, b1 := 1, b2 := 2 } (field v 12 20) = field v 12 3 := by
  show BitVec.ofBool (bit (field v 12 20) 2) ++ BitVec.ofBool (bit (field v 12 20) 1) ++ BitVec.ofBool (bit (field v 12 20) 0)
    = field v 12 (1 + 1 + 1)
  rw [ofBool_bit_field v 12 (by decide), ofBool_bit_field v 12 (by decide), ofBool_bit_field v 12 (by decide),
    field_append_field v 13 1 1, field_append_field v 12 2 1]

/-- The entry that a TLB write stores, by the bits of the value written to TR6 (R267, R268). -/
theorem writtenEntry_tr6Named (v tr7 : Word32) (free : BitVec 3) : writtenEntry (v &&& tr6Named) tr7 free
    = { lin := field v 12 20, v := bit v 11, d := pairValue (bit v 10) (bit v 9) (bit free 2)
        u := pairValue (bit v 8) (bit v 7) (bit free 1), w := pairValue (bit v 6) (bit v 5) (bit free 0)
        phys := field tr7 12 20 } := by
  rw [writtenEntry, tr6Linear_tr6Named, bit_tr6Named v (k := 11) (by decide), bit_tr6Named v (k := 10) (by decide),
    bit_tr6Named v (k := 9) (by decide), bit_tr6Named v (k := 8) (by decide), bit_tr6Named v (k := 7) (by decide),
    bit_tr6Named v (k := 6) (by decide), bit_tr6Named v (k := 5) (by decide)]

/-- No right is needed for a read that the processor makes on its own account (20_memory.md R166). -/
theorem pageAllows_sysRead (s : State) (u w : Bool) : s.pageAllows .sysRead u w = true := rfl

theorem translate_sysRead {s : State} {lin : Word32} {b : BitVec 2} (hpaging : s.paging = true)
    (hhit : s.tlbHits (field lin 12 20) = [b]) :
    translate .sysRead lin s = .ok ((s.tlbEntry b (field lin 12 20)).phys ++ field lin 0 12, s) :=
  translate_hit hpaging hhit (pageAllows_sysRead ..) nofun

/-- A TLB write that follows a write of `v` to TR6 (R268). -/
theorem writeTestReg_tlbWrite_ok {v : Word32} {s : State} (hc : bit v 0 = false) (hht : bit s.tr7 4 = true) :
    writeTestReg 6 v s = .ok ((), ({ s.withTr6 v with draws := s.draws + 1 } : State).setTlb (field s.tr7 2 2) (field v 12 20)
      (writtenEntry (v &&& tr6Named) s.tr7 (Config.tlbWrittenAttr s.draws))) := by
  rw [writeTestReg_tlbWrite hc, tlbWrite_ok (s := s.withTr6 v) hht, ← tr6Linear_tr6Named v]
  rfl

/-- Settles O46: the entry is that of `writtenEntry`, in the slot of its block and page, and the only one that its page then has. -/
theorem tlbWriteCommand : Obligations.TlbWriteCommand := by
  intro p m r s hp hcpl hc v x
  refine ⟨fun hx => hx ▸ tlbIndex_default v, fun hht => ?_, fun hht => ?_⟩
  · exact exec_movToTr_refused hp rfl hcpl ((writeTestReg_tlbWrite hc s).trans (tlbWrite_refused hht))
  · have hentry := writtenEntry_tr6Named v s.tr7 (Config.tlbWrittenAttr s.draws)
    have hwrite := writeTestReg_tlbWrite_ok hc hht
    generalize writtenEntry (v &&& tr6Named) s.tr7 (Config.tlbWrittenAttr s.draws) = e at hentry hwrite
    have hlin : e.lin = field v 12 20 := by rw [hentry]
    have hv : e.v = bit v 11 := by rw [hentry]
    have hphys : e.phys = field s.tr7 12 20 := by rw [hentry]
    refine ⟨_, e, exec_movToTr_next hp rfl hcpl hwrite (advance_eq _ rfl rfl rfl), rfl, hlin, hv, hphys, fun h => ?_, fun h => ?_,
      fun h => ?_, fun hlen hvalid halone y lin htlb hpart hpaging hpage => ?_⟩
    · rw [hentry, pairValue_of_ne h]
    · rw [hentry, pairValue_of_ne h]
    · rw [hentry, pairValue_of_ne h]
    · obtain ⟨hhits, hfound⟩ := tlbHits_congr (s := s.setTlb (field s.tr7 2 2) (field v 12 20) e) htlb hpart (field v 12 20)
      have hhit : y.tlbHits (field lin 12 20) = [field s.tr7 2 2] := by
        rw [hpage, hhits, tlbHits_setTlb hlen (hv.trans hvalid) hlin halone]
      rw [translate_sysRead hpaging hhit, hpage, hfound, tlbEntry_setTlb hlen, if_pos rfl, hphys]

/-! ### TLB lookup (R269) -/

theorem pairMatches_cases (e : Bool) : pairMatches false false e = false ∧ pairMatches false true e = !e
    ∧ pairMatches true false e = e ∧ pairMatches true true e = true := by
  cases e <;> decide

section
variable {s : State} {page : BitVec 20} (hpage : tr6Linear s.tr6 = page)
include hpage

theorem tlbRead_duplicate (h : 1 < (s.tlbHits page).length) : tlbRead s = .error (.refused .tlbDuplicate) := by
  unfold tlbRead
  rw [exec_bind_of_ok (exec_get s), hpage, decide_eq_true h]
  rfl

theorem tlbRead_found (hone : (s.tlbHits page).length ≤ 1) {b : BitVec 2} (h : s.tlbFound = [b]) : tlbRead s
    = .ok ((), { s with tr6 := foundTr6 s.tr6 (s.tlbEntry b page), tr7 := tr7Of (s.tlbEntry b page).phys true b }) := by
  unfold tlbRead
  rw [exec_bind_of_ok (exec_get s), hpage, decide_eq_false (by omega), exec_bind_of_ok (exec_refuseIf_false _ s), h]
  rfl

/-- After a lookup that finds nothing HT is 0, and the other fields of TR7 are free (U8). -/
theorem tlbRead_missed (hone : (s.tlbHits page).length ≤ 1) (h : s.tlbFound = []) : tlbRead s = .ok ((), { s with
    tr7 := tr7Of (Config.tr7AfterMiss s.draws).1 false (Config.tr7AfterMiss s.draws).2, draws := s.draws + 1 }) := by
  unfold tlbRead
  rw [exec_bind_of_ok (exec_get s), hpage, decide_eq_false (by omega), exec_bind_of_ok (exec_refuseIf_false _ s), h]
  rfl

end

theorem attrMatches_tr6Named (v : Word32) (e : TlbEntry) : attrMatches (v &&& tr6Named) e
    = (pairMatches (bit v 10) (bit v 9) e.d && pairMatches (bit v 8) (bit v 7) e.u && pairMatches (bit v 6) (bit v 5) e.w) := by
  rw [attrMatches, bit_tr6Named v (k := 10) (by decide), bit_tr6Named v (k := 9) (by decide), bit_tr6Named v (k := 8) (by decide),
    bit_tr6Named v (k := 7) (by decide), bit_tr6Named v (k := 6) (by decide), bit_tr6Named v (k := 5) (by decide)]

/-- Of the valid entries of a page those are found whose attributes match. -/
theorem tlbFound_withTr6 (s : State) (v : Word32) : (s.withTr6 v).tlbFound = (s.tlbHits (field v 12 20)).filter fun b =>
    attrMatches (v &&& tr6Named) (s.tlbEntry b (field v 12 20)) := by
  rw [← tr6Linear_tr6Named v]
  rfl

theorem tlbFound_of_one {s : State} {v : Word32} {b : BitVec 2} (h : s.tlbHits (field v 12 20) = [b]) : (s.withTr6 v).tlbFound
    = if attrMatches (v &&& tr6Named) (s.tlbEntry b (field v 12 20)) then [b] else [] := by
  rw [tlbFound_withTr6, h, List.filter_singleton, cond_eq_ite]

/-! ### What the lookup reports in TR6 and TR7 -/

theorem field_append_below {m n : Nat} (a : BitVec m) (b : BitVec n) {lo len : Nat} (h : lo + len ≤ n) :
    field (a ++ b) lo len = field b lo len := by
  refine BitVec.eq_of_getLsbD_eq fun j hj => ?_
  rw [getLsbD_field, getLsbD_field, BitVec.getLsbD_append, if_pos (by omega)]

theorem tr7Of_fields (phys : BitVec 20) (ht : Bool) (rep : BitVec 2) : field (tr7Of phys ht rep) 12 20 = phys
    ∧ bit (tr7Of phys ht rep) 4 = ht ∧ field (tr7Of phys ht rep) 2 2 = rep := by
  have hlow : ∀ (ht : Bool) (rep : BitVec 2), bit (BitVec.ofBool ht ++ rep ++ (0 : BitVec 2)) 4 = ht
      ∧ field (BitVec.ofBool ht ++ rep ++ (0 : BitVec 2)) 2 2 = rep := by decide
  obtain ⟨hbit, hfield⟩ := hlow ht rep
  refine ⟨?_, ?_, ?_⟩
  · exact (field_append_high _ _ 7 20).trans ((field_append_high phys 0 0 20).trans (field_self phys))
  · refine Eq.trans ?_ hbit
    rw [tr7Of, bit, BitVec.getLsbD_append, if_pos (by decide), bit]
  · exact (field_append_below _ _ (by decide)).trans hfield

theorem field_setBit_below (v : Word32) {i : Nat} (h : i < 12) (b : Bool) : field (setBit v i b) 12 20 = field v 12 20 := by
  refine BitVec.eq_of_getLsbD_eq fun j hj => ?_
  rw [getLsbD_field, getLsbD_field, getLsbD_setBit, if_neg (by omega)]

theorem foundTr6_fields (v : Word32) (e : TlbEntry) : field (foundTr6 v e) 12 20 = field v 12 20
    ∧ bit (foundTr6 v e) 11 = true ∧ bit (foundTr6 v e) 10 = e.d ∧ bit (foundTr6 v e) 9 = !e.d ∧ bit (foundTr6 v e) 8 = e.u
    ∧ bit (foundTr6 v e) 7 = !e.u ∧ bit (foundTr6 v e) 6 = e.w ∧ bit (foundTr6 v e) 5 = !e.w
    ∧ bit (foundTr6 v e) 0 = bit v 0 := by
  refine ⟨?_, ?_⟩
  · simp only [foundTr6]
    iterate 7 rw [field_setBit_below _ (by decide)]
  · simp [foundTr6, bit_setBit]

section
variable {p : List Prefix} {m : BitVec 2} {r : Gpr} {s : State} {v : Word32} (hp : Plain p) (hcpl : s.cpl = 0) (hv : s.reg r = v)
  (hc : bit v 0 = true)
include hp hcpl hv hc

/-- A lookup that finds one entry. -/
theorem exec_tlbLookup_found {b : BitVec 2} {e : TlbEntry} (hone : (s.tlbHits (field v 12 20)).length ≤ 1)
    (he : s.tlbEntry b (field v 12 20) = e) (h : (s.withTr6 v).tlbFound = [b]) :
    exec (.movToTr p m 6 r) s = .next { s.completed (.movToTr p m 6 r) with
      tr6 := foundTr6 (v &&& tr6Named) e, tr7 := tr7Of e.phys true b } := by
  subst hv he
  have hread := (writeTestReg_tlbRead hc s).trans (tlbRead_found (s := s.withTr6 (s.reg r)) (tr6Linear_tr6Named _) hone h)
  exact exec_movToTr_next hp rfl hcpl hread (advance_eq _ rfl rfl rfl)

/-- A lookup that finds nothing, whatever the reason. -/
theorem exec_tlbLookup_missed (hone : (s.tlbHits (field v 12 20)).length ≤ 1) (h : (s.withTr6 v).tlbFound = []) :
    ∃ u, exec (.movToTr p m 6 r) s = .next u ∧ bit u.tr7 4 = false
      ∧ u = { s.completed (.movToTr p m 6 r) with tr6 := v &&& 0xFFFFFFE1, tr7 := u.tr7, draws := u.draws } := by
  subst hv
  have hread := (writeTestReg_tlbRead hc s).trans (tlbRead_missed (s := s.withTr6 (s.reg r)) (tr6Linear_tr6Named _) hone h)
  exact ⟨_, exec_movToTr_next hp rfl hcpl hread (advance_eq _ rfl rfl rfl), (tr7Of_fields _ _ _).2.1, rfl⟩

end

/-- Settles O47: the four outcomes by the valid entries of the page and the attributes of a single one. -/
theorem tlbLookupCommand : Obligations.TlbLookupCommand := by
  refine ⟨pairMatches_cases, ?_⟩
  intro p m r s hp hcpl hc v
  have hv : s.reg r = v := rfl
  refine ⟨?_, fun hmiss => ?_, fun hmany => ?_⟩
  · intro b hhit e found
    have hone : (s.tlbHits (field v 12 20)).length ≤ 1 := by rw [hhit]; exact Nat.le_refl 1
    have hfound : (s.withTr6 v).tlbFound = if found then [b] else [] := by rw [tlbFound_of_one hhit, attrMatches_tr6Named]
    refine ⟨fun hmatch => ?_, fun hmatch => ?_⟩
    · obtain ⟨hphys, hht, hrep⟩ := tr7Of_fields e.phys true b
      obtain ⟨hlin, hvalid, hd, hd', hu, hu', hw, hw', hcmd⟩ := foundTr6_fields (v &&& tr6Named) e
      exact ⟨_, exec_tlbLookup_found hp hcpl hv hc hone rfl (hfound.trans (if_pos hmatch)), rfl, hphys, hht, hrep,
        hlin.trans (tr6Linear_tr6Named v), hvalid, hd, hd', hu, hu', hw, hw', hcmd.trans ((bit_tr6Named v (by decide)).trans hc)⟩
    · exact exec_tlbLookup_missed hp hcpl hv hc hone (hfound.trans (if_neg (by simp [hmatch])))
  · refine exec_tlbLookup_missed hp hcpl hv hc ?_ ?_
    · rw [hmiss]
      exact Nat.zero_le 1
    · rw [tlbFound_withTr6, hmiss, List.filter_nil]
  · exact exec_movToTr_refused hp rfl hcpl
      ((writeTestReg_tlbRead hc s).trans (tlbRead_duplicate (tr6Linear_tr6Named v) hmany))

end Sys2Proof.Machine
end

section
/-! PROOFS. Delivery in Real Mode (60_exceptions.md R355, R358, R361) and INT3 (42_debug_and_test_register_instructions.md R270). -/

namespace Sys2Proof.Machine

/-! ### The low half of a register -/

theorem low16_withLow16 (v : Word32) (h : Word16) : low16 (withLow16 v h) = h := by
  rw [low16_eq_field]
  exact field_append_low _ h

theorem withLow16_withLow16 (v : Word32) (g h : Word16) : withLow16 (withLow16 v g) h = withLow16 v h :=
  congrArg (· ++ h) ((field_append_high (v.extractLsb' 16 16) g 0 16).trans (field_self _))

theorem low16_sub (v u : Word32) : low16 (v - u) = low16 v - low16 u := by
  refine BitVec.eq_of_toNat_eq ?_
  simp only [low16, BitVec.toNat_setWidth, BitVec.toNat_sub]
  omega

theorem low16_zext32 (h : Word16) : low16 (zext32 h) = h := by
  simp [low16, zext32]

theorem toBytes_two_low16 (v : Word32) : toBytes 2 v.toNat = bytes16 (low16 v) := by
  rw [← toBytes_two, low16, BitVec.toNat_setWidth]
  refine congrArg₂ (fun a b => [a, b]) ?_ ?_ <;> refine BitVec.eq_of_toNat_eq ?_ <;> simp only [BitVec.toNat_ofNat] <;> omega

/-! ### A word in memory -/

theorem bytesAt_two (s : State) (a : Word32) : s.bytesAt (addrsFrom a 2) = [s.physByte a, s.physByte (a + 1)] := rfl

theorem phys16_of_bytesAt {s : State} {a : Word32} {w : Word16} (h : s.bytesAt (addrsFrom a 2) = bytes16 w) : s.phys16 a = w := by
  rw [bytesAt_two, bytes16, List.cons.injEq, List.cons.injEq] at h
  obtain ⟨hlow, hhigh, -⟩ := h
  rw [State.phys16, hlow, hhigh, word16_bytes16]

/-- A word is the same where its two bytes are. -/
theorem phys16_congr {s t : State} {a : Word32} (h : ∀ b ∈ addrsFrom a 2, t.physByte b = s.physByte b) :
    t.phys16 a = s.phys16 a := by
  rw [State.phys16, State.phys16, h a (by simp [addrsFrom]), h (a + 1) (by simp [addrsFrom])]

/-- The two words of four bytes read as a number (20_memory.md R136). -/
theorem words_of_four (s : State) (a : Word32) : BitVec.ofNat 16 (littleEndian (s.bytesAt (addrsFrom a 4))) = s.phys16 a
    ∧ BitVec.ofNat 16 (littleEndian (s.bytesAt (addrsFrom a 4)) / 2 ^ 16) = s.phys16 (a + 2) := by
  have hword (x : Word32) : s.phys16 x = word16 (s.physByte x) (s.physByte (x + 1)) := rfl
  have hnext : a + 2 + 1 = a + 3 := by rw [BitVec.add_assoc]; rfl
  have hbytes : s.bytesAt (addrsFrom a 4) = [s.physByte a, s.physByte (a + 1)] ++ [s.physByte (a + 2), s.physByte (a + 3)] := by
    rw [addrsFrom_four]
    rfl
  rw [hbytes, littleEndian_append, littleEndian_two, littleEndian_two, hword, hword, hnext]
  constructor <;> refine BitVec.eq_of_toNat_eq ?_ <;> simp only [BitVec.toNat_ofNat, List.length_cons, List.length_nil] <;> omega

/-! ### A push of delivery with a 16-bit stack pointer -/

/-- The bytes of the word that stands `k` bytes below SP. -/
abbrev State.wordBelow (s : State) (k : Word16) : List Word32 := addrsFrom (s.linear .ss (s.belowSp k)) 2

/-- The state after a word is pushed with SP. -/
def State.pushedWord (s : State) (w : Word16) : State :=
  (s.storeBytes (s.wordBelow 2) (bytes16 w)).setReg .esp (withLow16 s.gpr.esp (low16 s.gpr.esp - 2))

section
variable (s : State) (w : Word16)

theorem pushedWord_eq : s.pushedWord w = { s with
    gpr := { s.gpr with esp := withLow16 s.gpr.esp (low16 s.gpr.esp - 2) }, mem := (s.pushedWord w).mem } := by
  rw [State.pushedWord, storeBytes_eq]
  rfl

@[simp] theorem pushedWord_gpr : (s.pushedWord w).gpr = { s.gpr with esp := withLow16 s.gpr.esp (low16 s.gpr.esp - 2) } := by
  rw [pushedWord_eq]

@[simp] theorem pushedWord_cr0 : (s.pushedWord w).cr0 = s.cr0 := by rw [pushedWord_eq]
@[simp] theorem pushedWord_segs : (s.pushedWord w).segs = s.segs := by rw [pushedWord_eq]
@[simp] theorem pushedWord_part : (s.pushedWord w).part = s.part := by rw [pushedWord_eq]

@[simp] theorem pushedWord_pe : (s.pushedWord w).pe = s.pe := by rw [State.pe, pushedWord_cr0, State.pe]

@[simp] theorem pushedWord_sp : low16 (s.pushedWord w).gpr.esp = low16 s.gpr.esp - 2 := by
  rw [pushedWord_gpr]
  exact low16_withLow16 _ _

/-- The next word stands two bytes further below. -/
theorem pushedWord_place (k : Word16) :
    (s.pushedWord w).linear .ss ((s.pushedWord w).belowSp k) = s.linear .ss (s.belowSp (2 + k)) := by
  rw [State.linear, State.seg, pushedWord_segs, State.belowSp, pushedWord_sp, BitVec.sub_sub]
  rfl

theorem pushedWord_wordBelow (k : Word16) : (s.pushedWord w).wordBelow k = s.wordBelow (2 + k) :=
  congrArg (addrsFrom · 2) (pushedWord_place s w k)

theorem pushedWord_ram (pas : List Word32) : (s.pushedWord w).ram pas = s.ram pas := by
  rw [State.ram, pushedWord_part, State.ram]

end

theorem stackSize_of_real {s : State} (hpe : s.pe = false) : s.stackSize = .s16 := by
  rw [State.stackSize, State.prot, hpe]
  rfl

theorem pushOffset_of_real {s : State} (hpe : s.pe = false) : s.pushOffset .s16 = s.belowSp 2 := by
  rw [State.pushOffset, State.stackWrap, stackSize_of_real hpe]
  exact congrArg zext32 (low16_sub _ _)

theorem setStackTop_of_real {s : State} (hpe : s.pe = false) (off : Word32) :
    s.setStackTop off = s.setReg .esp (withLow16 s.gpr.esp (low16 off)) := by
  rw [State.setStackTop, stackSize_of_real hpe]
  rfl

/-- A word fits below SP unless it wraps inside (20_memory.md R144). -/
theorem belowSp_fits {s : State} {k : Word16} (h : low16 s.gpr.esp - k ≠ 0xFFFF) : (s.belowSp k).toNat + 2 ≤ 0x10000 := by
  have hne : (low16 s.gpr.esp - k).toNat ≠ 0xFFFF := fun heq => h (BitVec.eq_of_toNat_eq heq)
  have hlt := (low16 s.gpr.esp - k).isLt
  rw [State.belowSp, zext32, BitVec.toNat_setWidth]
  omega

theorem pushFrame_real {s : State} (hpe : s.pe = false) (hsp : low16 s.gpr.esp - 2 ≠ 0xFFFF) (hram : s.ram (s.wordBelow 2) = true)
    (v : Word32) : pushFrame .s16 v s = .ok ((), s.pushedWord (low16 v)) := by
  have hoff := pushOffset_of_real hpe
  have hpaging : s.paging = false := by rw [State.paging, hpe, Bool.and_false]
  have hprot : s.prot = false := by rw [State.prot, hpe, Bool.false_and]
  have hallow : s.segAllows .ss true (s.pushOffset .s16) 2 = true :=
    (segAllows_iff_of_not_prot hprot ..).mpr (hoff ▸ belowSp_fits hsp)
  have hpe' (pas : List Word32) (vs : List Byte) : (s.storeBytes pas vs).pe = false := by rw [storeBytes_eq]; exact hpe
  rw [pushFrame_flat hpaging hallow (by rw [hoff]; exact deviceAt_of_ram hram), setStackTop_of_real (hpe' _ _), storeBytes_gpr, hoff,
    State.belowSp, low16_zext32]
  exact congrArg (fun bs => Except.ok ((), (s.storeBytes (s.wordBelow 2) bs).setReg .esp _)) (toBytes_two_low16 v)

/-! ### The memory after a push -/

theorem zext32_succ {h : Word16} (hne : h ≠ 0xFFFF) : zext32 h + 1 = zext32 (h + 1) := by
  have hlt : h.toNat ≠ 0xFFFF := fun heq => hne (BitVec.eq_of_toNat_eq heq)
  have hone : (1 : Word16).toNat = 1 ∧ (1 : Word32).toNat = 1 := ⟨rfl, rfl⟩
  refine BitVec.eq_of_toNat_eq ?_
  simp only [zext32, BitVec.toNat_add, BitVec.toNat_setWidth, hone]
  omega

theorem zext32_inj {g h : Word16} (heq : zext32 g = zext32 h) : g = h := by
  rw [← low16_zext32 g, heq, low16_zext32]

/-- The two offsets of a word that does not wrap inside. -/
theorem mem_wordBelow {s : State} {k : Word16} (h : low16 s.gpr.esp - k ≠ 0xFFFF) {a : Word32} : a ∈ s.wordBelow k ↔
    a = s.linear .ss (zext32 (low16 s.gpr.esp - k)) ∨ a = s.linear .ss (zext32 (low16 s.gpr.esp - k + 1)) := by
  have hnext : s.linear .ss (s.belowSp k) + 1 = s.linear .ss (zext32 (low16 s.gpr.esp - k + 1)) := by
    rw [State.linear, BitVec.add_assoc, State.belowSp, zext32_succ h]
    rfl
  simp only [State.wordBelow, addrsFrom, hnext, List.mem_cons, List.not_mem_nil, or_false]
  rfl

/-- Words that stand two bytes or more apart have no byte in common. -/
theorem wordBelow_disjoint {s : State} {j k : Word16} (hj : low16 s.gpr.esp - j ≠ 0xFFFF) (hk : low16 s.gpr.esp - k ≠ 0xFFFF)
    (hjk : j ≠ k ∧ j ≠ k + 1 ∧ k ≠ j + 1) {a : Word32} (ha : a ∈ s.wordBelow j) : a ∉ s.wordBelow k := by
  have hinj {g h : Word16} (heq : s.linear .ss (zext32 g) = s.linear .ss (zext32 h)) : g = h :=
    zext32_inj ((BitVec.add_right_inj _).mp heq)
  obtain ⟨hne, habove, hbelow⟩ := hjk
  intro hb
  obtain rfl | rfl := (mem_wordBelow hj).mp ha <;> obtain heq | heq := (mem_wordBelow hk).mp hb <;> have hoff := hinj heq <;> bv_omega

theorem phys16_pushedWord {s : State} (hwf : Memory.wf s.mem = true) (hram : s.ram (s.wordBelow 2) = true) (w : Word16) :
    (s.pushedWord w).phys16 (s.linear .ss (s.belowSp 2)) = w :=
  phys16_of_bytesAt (bytesAt_storeBytes rfl (.of_map pageOffset (nodup_pageOffsets _ (by decide))) hram hwf)

theorem physByte_pushedWord {s : State} (hwf : Memory.wf s.mem = true) (w : Word16) {a : Word32} (ha : a ∉ s.wordBelow 2) :
    (s.pushedWord w).physByte a = s.physByte a := physByte_storeBytes_other _ ha hwf

theorem pushedWord_wf {s : State} (hwf : Memory.wf s.mem = true) (w : Word16) : Memory.wf (s.pushedWord w).mem = true :=
  storeBytes_wf _ _ hwf

/-! ### The three words of an entry in Real Mode (R355) -/

/-- The state after the three words of an entry are pushed. -/
def State.pushedFrame (s : State) (flags cs ip : Word16) : State := ((s.pushedWord flags).pushedWord cs).pushedWord ip

theorem pushedFrame_eq (s : State) (flags cs ip : Word16) : s.pushedFrame flags cs ip = { s with
    gpr := { s.gpr with esp := withLow16 s.gpr.esp (low16 s.gpr.esp - 6) }, mem := (s.pushedFrame flags cs ip).mem } := by
  have hesp : (s.pushedFrame flags cs ip).gpr = { s.gpr with esp := withLow16 s.gpr.esp (low16 s.gpr.esp - 6) } := by
    simp only [State.pushedFrame, pushedWord_gpr, low16_withLow16, withLow16_withLow16, BitVec.sub_sub]
    rfl
  rw [← hesp, State.pushedFrame, pushedWord_eq, pushedWord_eq, pushedWord_eq]

/-- Three words fit below SP, in ordinary memory. -/
structure State.FrameFits (s : State) : Prop where
  first : low16 s.gpr.esp - 2 ≠ 0xFFFF
  second : low16 s.gpr.esp - 4 ≠ 0xFFFF
  third : low16 s.gpr.esp - 6 ≠ 0xFFFF
  ram : s.ram (s.wordBelow 2 ++ s.wordBelow 4 ++ s.wordBelow 6) = true

theorem frameFits_of_realReady {s : State} {v : Byte} (h : s.realReady v) : s.FrameFits := by
  obtain ⟨-, -, -, hsp1, hsp3, hsp5, hram⟩ := h
  exact ⟨by bv_omega, by bv_omega, by bv_omega, hram⟩

theorem ram_append {s : State} {as bs : List Word32} : s.ram (as ++ bs) = true ↔ s.ram as = true ∧ s.ram bs = true := by
  rw [State.ram, List.all_append, Bool.and_eq_true, State.ram, State.ram]

section
variable {s : State} (h : s.FrameFits)
include h

/-- The three pushes of an entry in Real Mode, and what follows them. -/
theorem pushFrames_real {α : Type} (hpe : s.pe = false) (flags cs ip : Word32) (f : Exec α) :
    (do pushFrame .s16 flags; pushFrame .s16 cs; pushFrame .s16 ip; f : Exec α) s
      = f (s.pushedFrame (low16 flags) (low16 cs) (low16 ip)) := by
  obtain ⟨h2, h4, h6, hram⟩ := h
  simp only [ram_append] at hram
  obtain ⟨⟨hram2, hram4⟩, hram6⟩ := hram
  have hfirst := pushFrame_real hpe h2 hram2 flags
  have hsecond : pushFrame .s16 cs (s.pushedWord (low16 flags)) = .ok ((), (s.pushedWord (low16 flags)).pushedWord (low16 cs)) := by
    refine pushFrame_real ((pushedWord_pe ..).trans hpe) ?_ ?_ cs
    · rwa [pushedWord_sp, BitVec.sub_sub]
    · rwa [pushedWord_ram, pushedWord_wordBelow]
  have hthird : pushFrame .s16 ip ((s.pushedWord (low16 flags)).pushedWord (low16 cs))
      = .ok ((), s.pushedFrame (low16 flags) (low16 cs) (low16 ip)) := by
    refine pushFrame_real ((pushedWord_pe ..).trans ((pushedWord_pe ..).trans hpe)) ?_ ?_ ip
    · rwa [pushedWord_sp, pushedWord_sp, BitVec.sub_sub, BitVec.sub_sub]
    · rwa [pushedWord_ram, pushedWord_ram, pushedWord_wordBelow, pushedWord_wordBelow]
  rw [exec_bind_of_ok hfirst, exec_bind_of_ok hsecond, exec_bind_of_ok hthird]

variable (hwf : Memory.wf s.mem = true) (flags cs ip : Word16)
include hwf

/-- The three words stand below SP, and no other byte has changed. -/
theorem pushedFrame_mem : (s.pushedFrame flags cs ip).phys16 (s.linear .ss (s.belowSp 2)) = flags
    ∧ (s.pushedFrame flags cs ip).phys16 (s.linear .ss (s.belowSp 4)) = cs
    ∧ (s.pushedFrame flags cs ip).phys16 (s.linear .ss (s.belowSp 6)) = ip
    ∧ ∀ a, a ∉ s.wordBelow 2 ++ s.wordBelow 4 ++ s.wordBelow 6 → (s.pushedFrame flags cs ip).physByte a = s.physByte a := by
  obtain ⟨h2, h4, h6, hram⟩ := h
  simp only [ram_append] at hram
  obtain ⟨⟨hram2, hram4⟩, hram6⟩ := hram
  have hplace2 := pushedWord_place s flags 2
  have hplace3 := (pushedWord_place (s.pushedWord flags) cs 2).trans (pushedWord_place s flags 4)
  have hwords2 : (s.pushedWord flags).wordBelow 2 = s.wordBelow 4 := congrArg (addrsFrom · 2) hplace2
  have hwords3 : ((s.pushedWord flags).pushedWord cs).wordBelow 2 = s.wordBelow 6 := congrArg (addrsFrom · 2) hplace3
  have hwf1 := pushedWord_wf hwf flags
  have hwf2 := pushedWord_wf hwf1 cs
  have hbyte2 {a : Word32} (ha : a ∉ s.wordBelow 4) :
      ((s.pushedWord flags).pushedWord cs).physByte a = (s.pushedWord flags).physByte a :=
    physByte_pushedWord hwf1 cs (hwords2 ▸ ha)
  have hbyte3 {a : Word32} (ha : a ∉ s.wordBelow 6) :
      (s.pushedFrame flags cs ip).physByte a = ((s.pushedWord flags).pushedWord cs).physByte a :=
    physByte_pushedWord hwf2 ip (hwords3 ▸ ha)
  have hword1 := phys16_pushedWord hwf hram2 flags
  have hword2 := phys16_pushedWord hwf1 (by rwa [hwords2, pushedWord_ram]) cs
  have hword3 := phys16_pushedWord hwf2 (by rwa [hwords3, pushedWord_ram, pushedWord_ram]) ip
  rw [hplace2] at hword2
  rw [hplace3] at hword3
  refine ⟨?_, ?_, hword3, fun a ha => ?_⟩
  · refine (phys16_congr fun a ha => ?_).trans hword1
    rw [hbyte3 (wordBelow_disjoint h2 h6 (by decide) ha), hbyte2 (wordBelow_disjoint h2 h4 (by decide) ha)]
  · exact (phys16_congr fun a ha => hbyte3 (wordBelow_disjoint h4 h6 (by decide) ha)).trans hword2
  · simp only [List.mem_append, not_or] at ha
    obtain ⟨⟨ha2, ha4⟩, ha6⟩ := ha
    rw [hbyte3 ha6, hbyte2 ha4, physByte_pushedWord hwf flags ha2]

end

/-! ### Delivery in Real Mode -/

theorem realEntryFlags_eq (fl : Word32) : realEntryFlags fl = fl &&& ~~~ 0x00074300 := by
  show ((((((fl &&& ~~~ 0x100) &&& ~~~ 0x4000) &&& ~~~ 0x20000) &&& ~~~ 0x10000) &&& ~~~ 0x200) &&& ~~~ 0x40000 : Word32) = _
  simp only [BitVec.and_assoc]
  rfl

/-- The state in the handler of an event in Real Mode: its three words are pushed, its table entry gives CS and EIP (R355). -/
def State.inRealHandler (s : State) (ev : Event) : State :=
  let u := s.pushedFrame (low16 s.eflags) s.segs.cs.sel (low16 ev.eip)
  { u with
    eip := zext32 (s.phys16 (s.idtr.base + zext32 ev.vector * 4))
    segs := u.realCs (s.phys16 (s.idtr.base + zext32 ev.vector * 4 + 2))
    eflags := u.eflags &&& ~~~ 0x00074300
    dr7 := if ev.vector = 1 then setBit u.dr7 13 false else u.dr7 }

/-- The entry to a handler in Real Mode, in one update. -/
theorem enterReal_eq {t : State} (hpe : t.pe = false) (ip sel : Word16) (ev : Event) :
    ((t.loadReal .cs sel).jumpTo (zext32 ip) (realEntryFlags t.eflags)).enterHandler ev = { t with
      eip := zext32 ip, segs := t.realCs sel, eflags := t.eflags &&& ~~~ 0x00074300
      dr7 := if ev.vector = 1 then setBit t.dr7 13 false else t.dr7 } := by
  have hjump : (t.loadReal .cs sel).jumpTo (zext32 ip) (realEntryFlags t.eflags)
      = { t with eip := zext32 ip, segs := t.realCs sel, eflags := t.eflags &&& ~~~ 0x00074300 } := by
    have hsize : State.codeSize { t with segs := t.realCs sel, eflags := realEntryFlags t.eflags } = .s16 := by
      unfold State.codeSize State.prot
      rw [show State.pe { t with segs := t.realCs sel, eflags := realEntryFlags t.eflags } = false from hpe]
      rfl
    rw [State.loadReal_cs, State.jumpTo, State.setEip, hsize, codeOffset_s16, low16_zext32, realEntryFlags_eq]
  rw [hjump, State.enterHandler]
  split <;> rfl

section
variable {ev : Event} {s : State} (h : s.realReady ev.vector)
include h

/-- Delivery in Real Mode of an event whose vector is in the table. -/
theorem deliver_real : deliver ev s = .ok (none, s.inRealHandler ev) := by
  have hfits := frameFits_of_realReady h
  obtain ⟨hpe, hlimit, hdev, -⟩ := h
  have hpaging : s.paging = false := by rw [State.paging, hpe, Bool.and_false]
  obtain ⟨hip, hsel⟩ := words_of_four s (s.idtr.base + zext32 ev.vector * 4)
  have hreal : (s.pushedFrame (low16 s.eflags) s.segs.cs.sel (low16 ev.eip)).pe = false := by
    rw [pushedFrame_eq]
    exact hpe
  have hdeliver : deliverReal ev s = .ok ((), s.inRealHandler ev) := by
    unfold deliverReal
    rw [exec_bind_of_ok (exec_get s), decide_eq_false (by omega), exec_bind_of_ok (exec_raiseIf_false _ s),
      exec_bind_of_ok (sysRead_flat hpaging hdev), pushFrames_real hfits hpe, exec_modify, hip, hsel, low16_zext32,
      enterReal_eq hreal]
    rfl
  unfold deliver
  rw [exec_bind_of_ok (exec_get s), hpe]
  exact exec_bind_of_ok hdeliver

/-- The handler that it reaches (R355, R358). -/
theorem realEntry_inRealHandler (hwf : Memory.wf s.mem = true) : RealEntry ev.vector ev.eip s (s.inRealHandler ev) := by
  obtain ⟨hflags, hcs, heip, hbytes⟩ :=
    pushedFrame_mem (frameFits_of_realReady h) hwf (low16 s.eflags) s.segs.cs.sel (low16 ev.eip)
  refine ⟨?_, hflags, hcs, heip, hbytes⟩
  rw [State.inRealHandler, pushedFrame_eq]
  rfl

end

/-! ### Gates (R354, R357) -/

/-- Delivery through a gate that has been read. -/
def enterGate (ev : Event) (g : Gate) : Exec (Option Word32) := do
  let s ← get
  raiseIf (!g.valid) (.gp ev.idtCode)
  raiseIf (ev.software && decide (g.dpl < s.cpl)) (.gp ev.idtCode)
  raiseIf (!g.present) (.np ev.idtCode)
  if g.isTask then do
    deliverTask ev g
    pure ev.code
  else do
    deliverGate ev g
    pure none

/-- With paging off, delivery in Protected Mode is through the gate in the table. -/
theorem deliver_protected {ev : Event} {s : State} (hpe : s.pe = true) (hflat : s.paging = false)
    (hlimit : ev.vector.toNat * 8 + 7 ≤ s.idtr.limit.toNat)
    (hdev : s.deviceAt (addrsFrom (s.idtr.base + zext32 ev.vector * 8) 8) = false) :
    deliver ev s = enterGate ev (s.gateAt (s.idtr.base + zext32 ev.vector * 8)) s := by
  obtain ⟨hlow, hhigh⟩ := halves_of_double (s.phys32 (s.idtr.base + zext32 ev.vector * 8))
    (s.phys32 (s.idtr.base + zext32 ev.vector * 8 + 4))
  unfold deliver deliverProtected enterGate State.gateAt
  rw [exec_bind_of_ok (exec_get s), hpe, if_pos rfl, exec_bind_of_ok (exec_get s), decide_eq_false (by omega),
    exec_bind_of_ok (exec_raiseIf_false _ s), exec_bind_of_ok (sysRead_flat hflat hdev), littleEndian_eight, hlow, hhigh,
    exec_bind_of_ok (exec_get s)]

/-- An event of INT3 is held against the DPL of its gate (R354). -/
theorem enterGate_dpl {ev : Event} {g : Gate} {s : State} (hvalid : g.valid = true) (hsoft : ev.software = true)
    (hdpl : g.dpl < s.cpl) : enterGate ev g s = .error (.exc (.gp ev.idtCode)) := by
  unfold enterGate
  rw [exec_bind_of_ok (exec_get s), hvalid, Bool.not_true, exec_bind_of_ok (exec_raiseIf_false _ s), hsoft, decide_eq_true hdpl]
  rfl

theorem valid_of_type {g : Gate} (h : g.access &&& 0x1F ∈ [(6 : Byte), 7, 0xE, 0xF]) : g.valid = true := by
  have hall : ∀ a : Byte, a &&& 0x1F ∈ [(6 : Byte), 7, 0xE, 0xF] → Gate.valid { sel := 0, offset := 0, access := a } = true := by
    decide +kernel
  exact hall g.access h

/-! ### Traps (R321, R334) -/

/-- An event without an error code leaves none to be pushed. -/
theorem deliver_code {ev : Event} (hcode : ev.code = none) {s t : State} {c : Option Word32} (h : deliver ev s = .ok (c, t)) :
    c = none := by
  unfold deliver deliverProtected at h
  obtain ⟨_, _, -, h⟩ := exec_bind_ok h
  split at h
  · obtain ⟨_, _, -, h⟩ := exec_bind_ok h
    obtain ⟨_, _, -, h⟩ := exec_bind_ok h
    obtain ⟨_, _, -, h⟩ := exec_bind_ok h
    obtain ⟨_, _, -, h⟩ := exec_bind_ok h
    obtain ⟨_, _, -, h⟩ := exec_bind_ok h
    obtain ⟨_, _, -, h⟩ := exec_bind_ok h
    split at h <;> obtain ⟨_, _, -, h⟩ := exec_bind_ok h <;> cases h
    · exact hcode
    · rfl
  · obtain ⟨_, _, -, h⟩ := exec_bind_ok h
    cases h
    rfl

theorem takeTrap_of_ok {ev : Event} {s t : State} (h : deliver ev s = .ok (none, t)) :
    takeTrap ev s = .next { t with pending := { t.pending with singleStep := s.tf } } := by
  have hattempt : attempt ev s = .done t := by
    unfold attempt
    rw [exec_run, h]
    rfl
  rw [takeTrap, hattempt]
  rfl

theorem takeTrap_of_fault {ev : Event} {s : State} {e : Exn} (h : deliver ev s = .error (.exc e)) : takeTrap ev s = takeEvent ev s := by
  have hattempt : attempt ev s = .faulted e s := by
    unfold attempt
    rw [exec_run, h]
  rw [takeTrap, hattempt]

theorem exec_int3 {p : List Prefix} (hp : Plain p) (s : State) :
    exec (.int3 p) s = takeTrap (breakpointEvent (s.eipPlus (Instr.int3 p).length)) s := by
  show execInt3 p s = _
  unfold execInt3
  rw [exec_run, checkPrefixes_plain hp s]

/-- Settles O59: INT3 is its trap, delivered in Real Mode by `deliver_real` and held against the gate's DPL by `enterGate`. -/
theorem breakpointInstruction : Obligations.BreakpointInstruction := by
  intro p s hp ev
  have hexec : exec (.int3 p) s = takeTrap ev s := exec_int3 hp s
  refine ⟨fun c t h => ?_, fun e h => hexec.trans (takeTrap_of_fault h), fun hready hwf => ?_,
    fun hpe hflat hlimit hdev hdpl htype => ?_⟩
  · obtain rfl := deliver_code rfl h
    exact hexec.trans (takeTrap_of_ok h)
  · exact ⟨s.inRealHandler ev, realEntry_inRealHandler (ev := ev) hready hwf, hexec.trans (takeTrap_of_ok (deliver_real hready))⟩
  · have hplace : s.idtr.base + zext32 ev.vector * 8 = s.idtr.base + 24 := rfl
    have hcode : ev.idtCode = 26 := rfl
    have hgate : deliver ev s = enterGate ev (s.gateAt (s.idtr.base + 24)) s :=
      hplace ▸ deliver_protected (ev := ev) hpe hflat hlimit (hplace ▸ hdev)
    rw [hgate, enterGate_dpl (valid_of_type htype) rfl hdpl, hcode]

end Sys2Proof.Machine
end

section
/-! PROOFS. RDMSR, WRMSR, RDTSC and RDPMC (43_model_specific_instructions.md R280 to R289). -/

namespace Sys2Proof.Machine

/-! ### The registers by number (10_state.md R115 to R118) -/

/-- The numbers that name a register. -/
def msrNumbers : List Word32 :=
  [0x00, 0x01, 0x02, 0x04, 0x05, 0x06, 0x07, 0x08, 0x09, 0x0B, 0x0C, 0x0D, 0x0E, 0x10, 0x11, 0x12, 0x13]

theorem Msrs.get_isSome_iff {m : Msrs} {k : Word32} : (m.get k).isSome = true ↔ k ∈ msrNumbers := by
  refine ⟨fun h => ?_, fun h => ?_⟩
  · by_contra hk
    simp only [msrNumbers, List.mem_cons, List.not_mem_nil, or_false, not_or] at hk
    simp only [Msrs.get, hk, if_false, Option.isSome_none, Bool.false_eq_true] at h
  · fin_cases h <;> rfl

theorem Msrs.set_of_unknown {m : Msrs} {k : Word32} (hk : k ∉ msrNumbers) (v : Word64) : m.set k v = m := by
  simp only [msrNumbers, List.mem_cons, List.not_mem_nil, or_false, not_or] at hk
  simp only [Msrs.set, hk, if_false]

theorem Msrs.get_set_other {m : Msrs} {j k : Word32} (hne : j ≠ k) (v : Word64) : (m.set k v).get j = m.get j := by
  by_cases hk : k ∈ msrNumbers
  · fin_cases hk <;> simp only [Msrs.get, if_neg hne] <;> rfl
  · rw [Msrs.set_of_unknown hk]

theorem msrReserved_iff {k : Word32} {v : Word64} : msrReserved k v = true ↔ (k = 0x12 ∨ k = 0x13) ∧ 2 ^ 40 ≤ v.toNat := by
  have hhigh : v.toNat / 2 ^ 40 ≠ 0 ↔ 2 ^ 40 ≤ v.toNat := by omega
  simp only [msrReserved, Bool.and_eq_true, Bool.or_eq_true, beq_iff_eq, bne_iff_ne, hhigh]

/-- A counter holds a value of 40 bits whole (R288; log 27). -/
theorem setWidth_counter {v : Word64} (h : v.toNat < 2 ^ 40) : (v.setWidth 40).setWidth 64 = v :=
  BitVec.eq_of_toNat_eq (by rw [BitVec.toNat_setWidth, BitVec.toNat_setWidth]; omega)

/-- What a register holds of the value written: a counter its low 40 bits. -/
theorem Msrs.get_set_eq {k : Word32} (hk : k ∈ msrNumbers) (m : Msrs) (v : Word64) :
    (m.set k v).get k = some (if k = 0x12 ∨ k = 0x13 then (v.setWidth 40).setWidth 64 else v) := by
  fin_cases hk <;> rfl

theorem Msrs.get_set_same {k : Word32} {v : Word64} (hk : k ∈ msrNumbers) (hv : msrReserved k v = false) (m : Msrs) :
    (m.set k v).get k = some v := by
  rw [Msrs.get_set_eq hk]
  split
  · next hcounter =>
    have hfits : v.toNat < 2 ^ 40 :=
      not_le.mp fun hge => Bool.false_ne_true (hv.symm.trans (msrReserved_iff.mpr ⟨hcounter, hge⟩))
    rw [setWidth_counter hfits]
  · rfl

theorem mem_msrNumbers_of_hasMsr {s : State} {k : Word32} (h : s.hasMsr k = true) : k ∈ msrNumbers :=
  Msrs.get_isSome_iff.mp (Bool.and_eq_true_iff.mp h).2

/-! ### The checks of RDMSR and WRMSR (R281, R282) -/

section
variable {s : State}

theorem requireMsrAccess_realMode (hpe : s.pe = false) : requireMsrAccess true s = .error (.refused .msrRealMode) := by
  unfold requireMsrAccess
  rw [exec_bind_of_ok (exec_get s), Bool.not_true, exec_bind_of_ok (exec_raiseIf_false _ s), hpe, Bool.not_false,
    exec_bind_of_error (exec_refuseIf_true _ s)]

/-- In Protected Mode the level and the number decide. -/
theorem requireMsrAccess_of_pe (hpe : s.pe = true) : requireMsrAccess true s
    = (do requirePrivilege; raiseIf (!s.hasMsr s.gpr.ecx) (.gp 0) : Exec Unit) s := by
  unfold requireMsrAccess
  rw [exec_bind_of_ok (exec_get s), Bool.not_true, exec_bind_of_ok (exec_raiseIf_false _ s), hpe, Bool.not_true,
    exec_bind_of_ok (exec_refuseIf_false _ s)]

theorem requireMsrAccess_denied (hpe : s.pe = true) (h : s.cpl ≠ 0 ∨ s.hasMsr s.gpr.ecx = false) :
    requireMsrAccess true s = .error (.exc (.gp 0)) := by
  rw [requireMsrAccess_of_pe hpe]
  by_cases hcpl : s.cpl = 0
  · have hno : s.hasMsr s.gpr.ecx = false := h.resolve_left (not_not_intro hcpl)
    rw [exec_bind_of_ok (requirePrivilege_ok hcpl), hno, Bool.not_false, exec_raiseIf_true]
  · exact exec_bind_of_error (requirePrivilege_raises hcpl)

theorem requireMsrAccess_ok (hpe : s.pe = true) (hcpl : s.cpl = 0) (hmsr : s.hasMsr s.gpr.ecx = true) :
    requireMsrAccess true s = .ok ((), s) := by
  rw [requireMsrAccess_of_pe hpe, exec_bind_of_ok (requirePrivilege_ok hcpl), hmsr, Bool.not_true, exec_raiseIf_false]

variable {i : Instr} {present : Bool} {body : Exec Unit} (hp : Plain i.prefixes) (hpart : present = true)
include hp hpart

theorem runInstr_msr_realMode (hpe : s.pe = false) :
    runInstr i (do requireMsrAccess present; body) s = .refused .msrRealMode := by
  subst hpart
  exact runInstr_refused hp (exec_bind_of_error (requireMsrAccess_realMode hpe))

theorem runInstr_msr_denied (hpe : s.pe = true) (h : s.cpl ≠ 0 ∨ s.hasMsr s.gpr.ecx = false) :
    runInstr i (do requireMsrAccess present; body) s = takeException (.gp 0) s := by
  subst hpart
  exact runInstr_raises hp (exec_bind_of_error (requireMsrAccess_denied hpe h))

end

/-! ### RDMSR and WRMSR (R280, R283) -/

section
variable {p : List Prefix} {s : State} (hp : Plain p) (hpe : s.pe = true) (hcpl : s.cpl = 0)
  (hmsr : s.hasMsr s.gpr.ecx = true)
include hp hpe hcpl hmsr

theorem exec_rdmsr_next (hpart : s.part.features.rdmsr = true) {x : Word64} (hx : s.msr.get s.gpr.ecx = some x) :
    exec (.rdmsr p) s
      = .next { s.completed (.rdmsr p) with gpr := { s.gpr with edx := field x 32 32, eax := field x 0 32 } } := by
  refine runInstr_ok (i := .rdmsr p) (t := s.setEdxEax x) hp ?_ (advance_gprs s _ _)
  rw [hpart, exec_bind_of_ok (requireMsrAccess_ok hpe hcpl hmsr), exec_modify, hx, Option.getD_some]

theorem exec_wrmsr_raises (hpart : s.part.features.wrmsr = true)
    (h : (s.msrFixed s.gpr.ecx || msrReserved s.gpr.ecx s.edxEax) = true) :
    exec (.wrmsr p) s = takeException (.gp 0) s := by
  refine runInstr_raises (i := .wrmsr p) hp ?_
  rw [hpart, exec_bind_of_ok (requireMsrAccess_ok hpe hcpl hmsr), exec_bind_of_error (raiseIf_raises h)]

theorem exec_wrmsr_next (hpart : s.part.features.wrmsr = true)
    (h : (s.msrFixed s.gpr.ecx || msrReserved s.gpr.ecx s.edxEax) = false) :
    exec (.wrmsr p) s = .next { s.completed (.wrmsr p) with msr := s.msr.set s.gpr.ecx s.edxEax } := by
  refine runInstr_ok (i := .wrmsr p) (t := { s with msr := s.msr.set s.gpr.ecx s.edxEax }) hp ?_ (advance_eq _ rfl rfl rfl)
  rw [hpart, exec_bind_of_ok (requireMsrAccess_ok hpe hcpl hmsr), h, exec_bind_of_ok (exec_raiseIf_false _ s), exec_modify]

end

/-- The guard of WRMSR in the words of R281: a reserved bit of a counter, or a register that is not writable. -/
theorem wrmsrGuard_iff {s : State} {k : Word32} {v : Word64} : (s.msrFixed k || msrReserved k v) = true
    ↔ ((k = 0x12 ∨ k = 0x13) ∧ 2 ^ 40 ≤ v.toNat) ∨ k ∈ s.part.msrReadOnly := by
  rw [Bool.or_eq_true, msrReserved_iff, State.msrFixed, List.contains_iff_mem, or_comm]

/-- Settles O48: the checks of `requireMsrAccess` in their order, then for WRMSR its own guard. -/
theorem modelSpecificMoves : Obligations.ModelSpecificMoves := by
  intro p s hp k v reserved
  refine ⟨fun hpart => ⟨runInstr_msr_realMode (i := .rdmsr p) hp hpart, runInstr_msr_denied (i := .rdmsr p) hp hpart,
      fun hpe hcpl hmsr x hx => exec_rdmsr_next hp hpe hcpl hmsr hpart hx⟩,
    fun hpart => ⟨runInstr_msr_realMode (i := .wrmsr p) hp hpart, runInstr_msr_denied (i := .wrmsr p) hp hpart,
      fun hpe hcpl hmsr => ⟨fun hbad => ?_, fun hres hro => ?_⟩⟩⟩
  · exact exec_wrmsr_raises hp hpe hcpl hmsr hpart (wrmsrGuard_iff.mpr hbad)
  · have hguard : ¬ (s.msrFixed k || msrReserved k v) = true := fun h => (wrmsrGuard_iff.mp h).elim hres hro
    exact exec_wrmsr_next hp hpe hcpl hmsr hpart (Bool.eq_false_of_not_eq_true hguard)

/-- An instruction that completes ends at the level it began at. -/
theorem completed_cpl (s : State) (i : Instr) : (s.completed i).cpl = s.cpl := by
  have hvm : (s.completed i).vm = s.vm := clearRf_vm s
  rw [State.cpl, hvm]
  rfl

/-- EDX:EAX with its own value loaded is unchanged. -/
theorem setEdxEax_edxEax (s : State) : s.setEdxEax s.edxEax = s := by
  have hedx : field s.edxEax 32 32 = s.gpr.edx := (field_append_high _ _ 0 32).trans (field_self _)
  have heax : field s.edxEax 0 32 = s.gpr.eax := field_append_low _ _
  rw [State.setEdxEax, hedx, heax]

/-- Settles O49: WRMSR leaves the mode, the level and the general registers alone, and a register gives back what was written to
it (`Msrs.get_set_same`, `Msrs.get_set_other`). -/
theorem modelSpecificRoundTrip : Obligations.ModelSpecificRoundTrip := by
  intro p q s hp hq hrd hwr hprot hcpl hmsr hfixed hres
  have hpe : s.pe = true := (Bool.and_eq_true_iff.mp hprot).1
  have hlisted : s.part.msrSet.contains s.gpr.ecx = true := (Bool.and_eq_true_iff.mp hmsr).1
  have hread := Msrs.get_set_same (mem_msrNumbers_of_hasMsr hmsr) hres s.msr
  have hwrite := exec_wrmsr_next hp hpe hcpl hmsr hwr (Bool.or_eq_false_iff.mpr ⟨hfixed, hres⟩)
  refine ⟨_, _, hwrite,
    exec_rdmsr_next (s := { s.completed (.wrmsr p) with msr := s.msr.set s.gpr.ecx s.edxEax }) hq ?pe ?cpl ?msr hrd hread,
    ?gpr, fun k hk => Msrs.get_set_other hk s.edxEax⟩
  case pe => exact hpe
  case cpl => exact (completed_cpl s (.wrmsr p)).trans hcpl
  case msr =>
    show (s.part.msrSet.contains s.gpr.ecx && ((s.msr.set s.gpr.ecx s.edxEax).get s.gpr.ecx).isSome) = true
    rw [hlisted, State.edxEax, hread]
    rfl
  case gpr =>
    show (s.setEdxEax s.edxEax).gpr = s.gpr
    rw [setEdxEax_edxEax]

/-! ### RDTSC and RDPMC (R285 to R289) -/

theorem privileged_iff {s : State} : s.privileged = true ↔ s.cpl = 0 := beq_iff_eq

theorem cpl_of_realMode {s : State} (hpe : s.pe = false) : s.cpl = 0 := by
  rw [State.cpl, hpe]
  rfl

section
variable {s : State} {present c : Bool} {body : Exec Unit} (hpart : present = true)
include hpart

/-- The guards with which both reads begin let pass at level 0, and at every level where CR4 says so. -/
theorem counterGuards_ok (h : c = false ∨ s.cpl = 0) :
    (do raiseIf (!present) .ud; raiseIf (c && !s.privileged) (.gp 0); body : Exec Unit) s = body s := by
  have hlevel : (c && !s.privileged) = false := by
    rcases h with hc | hcpl
    · rw [hc, Bool.false_and]
    · rw [privileged_iff.mpr hcpl, Bool.not_true, Bool.and_false]
  rw [hpart, Bool.not_true, exec_bind_of_ok (exec_raiseIf_false _ s), hlevel, exec_bind_of_ok (exec_raiseIf_false _ s)]

theorem counterGuards_raise (hc : c = true) (hcpl : s.cpl ≠ 0) :
    (do raiseIf (!present) .ud; raiseIf (c && !s.privileged) (.gp 0); body : Exec Unit) s = .error (.exc (.gp 0)) := by
  have hlevel : (c && !s.privileged) = true := by
    rw [hc, Bool.eq_false_of_not_eq_true (mt privileged_iff.mp hcpl)]
    rfl
  rw [hpart, Bool.not_true, exec_bind_of_ok (exec_raiseIf_false _ s), exec_bind_of_error (raiseIf_raises hlevel)]

end

/-- Settles O50: the guard on CR4.TSD and the level; Real Mode is level 0. -/
theorem timeStampRead : Obligations.TimeStampRead := by
  intro p s hp hpart
  refine ⟨fun h => ?_, fun htsd hcpl => runInstr_raises (i := .rdtsc p) hp (counterGuards_raise hpart htsd hcpl)⟩
  have hlevel : s.tsd = false ∨ s.cpl = 0 := h.imp_right fun h => h.elim id cpl_of_realMode
  exact runInstr_ok (i := .rdtsc p) (t := s.setEdxEax s.msr.tsc) hp (counterGuards_ok hpart hlevel) (advance_gprs s _ _)

/-- The two halves of a counter's value, of which the upper has 8 bits (R288). -/
theorem field_counter (c : BitVec 40) :
    field (c.setWidth 64) 32 32 = zext32 (field c 32 8) ∧ field (c.setWidth 64) 0 32 = field c 0 32 := by
  refine ⟨BitVec.eq_of_getLsbD_eq fun j hj => ?_, BitVec.eq_of_getLsbD_eq fun j hj => ?_⟩
  · rw [zext32, BitVec.getLsbD_setWidth, getLsbD_field, getLsbD_field, BitVec.getLsbD_setWidth]
    by_cases hlow : j < 8
    · simp [hlow, hj, show 32 + j < 64 by omega]
    · simp [hlow, BitVec.getLsbD_of_ge c (32 + j) (by omega)]
  · rw [getLsbD_field, getLsbD_field, BitVec.getLsbD_setWidth, decide_eq_true (show 0 + j < 64 by omega), Bool.true_and]

/-- Settles O51: the guard on CR4.PCE and the level, then the guard on the number. -/
theorem performanceCounterRead : Obligations.PerformanceCounterRead := by
  intro p s hp hpart
  have hpce {b : Bool} (h : bit s.cr4 8 = b) : (!s.pce) = !b := congrArg (!·) h
  refine ⟨fun h hcpl => runInstr_raises (i := .rdpmc p) hp (counterGuards_raise hpart (hpce h) hcpl), fun h => ?_⟩
  have hlevel : (!s.pce) = false ∨ s.cpl = 0 := h.imp_left hpce
  refine ⟨fun h0 h1 => runInstr_raises (i := .rdpmc p) hp ((counterGuards_ok hpart hlevel).trans ?number), fun c hc => ?reads⟩
  case number =>
    exact exec_bind_of_error (raiseIf_raises (Bool.and_eq_true_iff.mpr ⟨bne_iff_ne.mpr h0, bne_iff_ne.mpr h1⟩))
  case reads =>
    obtain ⟨hnumber, rfl⟩ : (s.gpr.ecx != 0 && s.gpr.ecx != 1) = false ∧ s.counter s.gpr.ecx = c := by
      rcases hc with ⟨hk, rfl⟩ | ⟨hk, rfl⟩ <;> rw [hk] <;> exact ⟨rfl, rfl⟩
    obtain ⟨hhigh, hlow⟩ := field_counter (s.counter s.gpr.ecx)
    rw [← hhigh, ← hlow]
    refine runInstr_ok (i := .rdpmc p) (t := s.setEdxEax ((s.counter s.gpr.ecx).setWidth 64)) hp
      ((counterGuards_ok hpart hlevel).trans ?_) (advance_gprs s _ _)
    rw [hnumber, exec_bind_of_ok (exec_raiseIf_false _ s), exec_modify]

end Sys2Proof.Machine
end

section
/-! PROOFS. CR0.TS (44_task_and_coprocessor_instructions.md R307): a task switch sets it, and nothing but CLTS, LMSW and MOV to CR0
clears it. -/

namespace Sys2Proof.Machine

/-- TS stays set. -/
def TsKept (s t : State) : Prop := s.ts = true → t.ts = true

theorem tsKept_frame : IsFrame TsKept where
  refl _ := id
  trans _ _ _ h1 h2 := h2 ∘ h1

theorem tsKept_of_eq {s t : State} (h : t.cr0 = s.cr0) : TsKept s t := by
  rw [TsKept, State.ts, State.ts, h]
  exact id

/-- A task switch sets TS (44 R303). -/
theorem enterTask_ts (s : State) (kind : SwitchKind) (c : TaskContext) : (s.enterTask kind c).ts = true :=
  (bit_setBit s.cr0 3 3 true).trans (if_pos ⟨rfl, by decide⟩)

theorem tsKept_stepClosed : StepClosed TsKept where
  frame := tsKept_frame
  store _ _ _ := tsKept_of_eq (storeBytes_cr0 ..)
  tlb _ _ _ := tsKept_of_eq rfl
  draws _ _ := tsKept_of_eq rfl
  pending _ _ := tsKept_of_eq rfl
  esp _ _ := tsKept_of_eq rfl
  segs _ _ := tsKept_of_eq rfl
  level _ _ := tsKept_of_eq rfl
  jump _ _ _ := tsKept_of_eq rfl
  jumpReal _ _ := tsKept_of_eq rfl
  guard _ := tsKept_of_eq rfl
  ldtr _ _ := tsKept_of_eq rfl
  cpl _ _ := tsKept_of_eq rfl
  task s g kind c _ _ := enterTask_ts { s with tr := g } kind c
  setEip _ := tsKept_of_eq rfl
  raised _ _ := tsKept_of_eq (raised_cr0 ..)
  down _ := tsKept_of_eq rfl
  iret _ _ _ _ _ h := h
  iretVirtual _ _ _ _ h := h
  unblock _ := tsKept_of_eq rfl
  gprs _ _ := tsKept_of_eq rfl
  gdtr _ _ := tsKept_of_eq rfl
  idtr _ _ := tsKept_of_eq rfl
  tr _ _ := tsKept_of_eq rfl
  cr2 _ _ := tsKept_of_eq rfl
  cr3 _ _ := tsKept_of_eq rfl
  cr4 _ _ _ := tsKept_of_eq rfl
  tr6 _ _ := tsKept_of_eq rfl
  tr7 _ _ := tsKept_of_eq rfl
  tr6Found _ _ := tsKept_of_eq rfl
  tr7Found _ _ _ _ := tsKept_of_eq rfl
  msr _ _ := tsKept_of_eq rfl
  env _ _ := tsKept_of_eq rfl
  activity _ _ := tsKept_of_eq rfl
  nmiBlocked _ _ := tsKept_of_eq rfl
  goOn _ _ := tsKept_of_eq rfl
  report _ := tsKept_of_eq rfl

/-- Of the four instructions whose writes are their own, MOV to a debug register leaves CR0 alone; the others are the excepted ones. -/
theorem tsKept_writes {i : Instr} (hclts : ∀ p, i ≠ .clts p) (hlmsw : ∀ p o, i ≠ .lmsw p o)
    (hmov : ∀ p mod r, i ≠ .movToCr p mod 0 r) : WritesKept TsKept i := by
  cases i with
  | clts p => exact absurd rfl (hclts p)
  | lmsw p o => exact absurd rfl (hlmsw p o)
  | movToCr p mod n r => exact fun hn => absurd rfl (hn ▸ hmov p mod r)
  | movToDr p mod n r => exact fun s v => tsKept_of_eq (writeDr_cr0 s n v)
  | _ => trivial

/-- Settles O17: every update of a step keeps TS but those of CLTS, LMSW and MOV to CR0, and the step runs the instruction it fetches. -/
theorem taskSwitchedClearedOnlyBy : Obligations.TaskSwitchedClearedOnlyBy := by
  intro s t hreset hts hstep hfetched
  refine keepsFrom_step tsKept_stepClosed.toCycleClosed (fun h => absurd h (by simp [hreset])) (fun _ i u hfetch => ?_) t hstep hts
  obtain ⟨hclts, hlmsw, hmov⟩ := hfetched i u hfetch
  exact keepsFrom_exec tsKept_stepClosed (tsKept_writes hclts hlmsw hmov) u

end Sys2Proof.Machine
end

section
/-! PROOFS. WAIT and ESC (44_task_and_coprocessor_instructions.md R306 to R310). -/

namespace Sys2Proof.Machine

/-! ### The pending numeric error (R309) -/

section
variable {s : State}

theorem numericAction_proceed (h : s.env.numericError = false ∨ (s.ne = false ∧ s.env.ignneLow = true)) :
    s.numericAction = .proceed := by
  unfold State.numericAction
  obtain hnone | ⟨hne, hignore⟩ := h
  · rw [hnone, Bool.not_false, if_pos rfl]
  · rw [hne, hignore]
    simp

theorem numericAction_fault (herror : s.env.numericError = true) (hne : s.ne = true) : s.numericAction = .fault := by
  simp [State.numericAction, herror, hne]

theorem numericAction_stop (herror : s.env.numericError = true) (hne : s.ne = false) (hignore : s.env.ignneLow = false) :
    s.numericAction = .stop := by
  simp [State.numericAction, herror, hne, hignore]

end

/-! ### The two instructions without prefixes that matter -/

section
variable {p : List Prefix} (hp : Plain p) (s : State)
include hp

/-- The checks that WAIT and ESC begin with. -/
theorem checkAvailable_eq (c : Bool) : (do checkPrefixes p; raiseIf c .nm : Exec Unit) s = raiseIf c .nm s :=
  exec_bind_of_ok (checkPrefixes_plain hp s)

/-- WAIT, by MP and TS and then by the pending error (R308, R309). -/
theorem exec_wait : exec (.wait p) s = if s.mp && s.ts then takeException .nm s else match s.numericAction with
    | .proceed => .next (s.completed (.wait p))
    | .fault => takeException .mf s
    | .stop => .next s.waitHere := by
  have hgoOn : runInstr (.wait p) (pure ()) s = .next (s.completed (.wait p)) :=
    runInstr_ok (i := .wait p) hp (exec_pure () s) (advance_gprs s s.gpr _)
  show execWait p s = _
  unfold execWait
  rw [exec_run, checkAvailable_eq hp, hgoOn]
  cases s.mp && s.ts <;> rfl

/-- ESC, by EM and TS and then, if it waits, by the pending error (R306, R307, R309). -/
theorem exec_esc (x g : BitVec 3) (o : RmOp) : exec (.esc p x g o) s = if s.em || s.ts then takeException .nm s
    else match if escWaits x g o then s.numericAction else .proceed with
    | .proceed => .refused .fpuOperation
    | .fault => takeException .mf s
    | .stop => .next s.waitHere := by
  show execEsc p x g o s = _
  unfold execEsc
  rw [exec_run, checkAvailable_eq hp]
  cases s.em || s.ts <;> rfl

end

/-! ### Taking an exception that delivery accepts -/

/-- An exception whose delivery leaves no error code to be pushed ends in its handler (60 R354, R355). -/
theorem takeException_of_deliver {e : Exn} {s t : State} (h : deliver (e.event (s.raised e)) (s.raised e) = .ok (none, t)) :
    takeException e s = .next t := by
  have hattempt : attempt (e.event (s.raised e)) (s.raised e) = .done t := by
    unfold attempt
    rw [exec_run, h]
    rfl
  unfold takeException deliverFrom
  rw [hattempt]

/-- #NM in Real Mode enters vector 7 with the EIP of its instruction (60 R355, R358, R361). -/
theorem takeException_nm_real {s : State} (h : s.realReady 7) (hwf : Memory.wf s.mem = true) :
    ∃ t, takeException .nm s = .next t ∧ RealEntry 7 s.eip s t :=
  ⟨_, takeException_of_deliver (deliver_real (ev := Exn.nm.event s) h), realEntry_inRealHandler (ev := Exn.nm.event s) h hwf⟩

/-- Settles O57: the two instructions by their checks, and of a pending error by the table of R309. -/
theorem waitAndEsc : Obligations.WaitAndEsc := by
  intro p x g o s hp
  rw [exec_wait hp, exec_esc hp]
  refine ⟨fun hmp hts => if_pos (by rw [hmp, hts]; rfl), fun hfree => ?wait, fun htrap => ?trap, fun hem hts => ?esc⟩
  case wait =>
    have hfree' : ¬ (s.mp && s.ts) = true := by rcases hfree with h | h <;> simp [h]
    rw [if_neg hfree']
    refine ⟨fun h => ?_, fun herror hne => ?_, fun herror hne hignore => ?_⟩
    · rw [numericAction_proceed h]
    · rw [numericAction_fault herror hne]
    · rw [numericAction_stop herror hne hignore]
      rfl
  case trap =>
    rw [if_pos (by simpa using htrap)]
    exact ⟨rfl, takeException_nm_real⟩
  case esc =>
    rw [hem, hts, if_neg (by decide)]
    refine ⟨fun h => ?_, fun herror hwaits hne => ?_, fun herror hwaits hne hignore => ?_⟩
    · have haction : (if escWaits x g o then s.numericAction else .proceed) = .proceed := by
        cases hwaits : escWaits x g o with
        | false => rfl
        | true => exact numericAction_proceed (h.imp_right fun hr => hr.resolve_right (by simp [hwaits]))
      rw [haction]
    · rw [hwaits, if_pos rfl, numericAction_fault herror hne]
    · rw [hwaits, if_pos rfl, numericAction_stop herror hne hignore]
      rfl

end Sys2Proof.Machine
end

section
/-! PROOFS. The pushes and pops of an instruction (44_task_and_coprocessor_instructions.md R301, R302; 20_memory.md R144). -/

namespace Sys2Proof.Machine

/-! ### The stack pointer -/

theorem low16_add (v u : Word32) : low16 (v + u) = low16 v + low16 u := BitVec.setWidth_add _ _ (by decide)

theorem low16_ofNat (n : Nat) : low16 (BitVec.ofNat 32 n) = BitVec.ofNat 16 n := by
  simp [low16]

/-- ESP with the top of the stack made `off`: the whole of it, or its low half (20_memory.md R144). -/
def espAfter (z : OpSize) (esp off : Word32) : Word32 :=
  match z with
  | .s32 => off
  | .s16 => withLow16 esp (low16 off)

theorem setStackTop_eq (s : State) (off : Word32) :
    s.setStackTop off = { s with gpr := { s.gpr with esp := espAfter s.stackSize s.gpr.esp off } } := by
  unfold State.setStackTop
  cases s.stackSize <;> rfl

/-- The stack pointer moved by `k` and held in its own size. -/
theorem esp_stackWrap (s : State) (esp off : Word32) : espAfter s.stackSize esp (s.stackWrap off) = espAfter s.stackSize esp off := by
  unfold State.stackWrap
  cases s.stackSize with
  | s32 => rfl
  | s16 => exact congrArg (withLow16 esp) (low16_zext32 _)

/-- Adding to the wrapped top of the stack moves the same pointer. -/
theorem esp_stackTop_add (s : State) (esp k : Word32) :
    espAfter s.stackSize esp (s.stackTop + k) = espAfter s.stackSize esp (s.gpr.esp + k) := by
  unfold State.stackTop State.stackWrap
  cases s.stackSize with
  | s32 => rfl
  | s16 => exact congrArg (withLow16 esp) (by rw [low16_add, low16_zext32, low16_add])

theorem RegistersKept.stackSize {s t : State} (h : RegistersKept s t) : t.stackSize = s.stackSize := by
  rw [h]
  rfl

theorem RegistersKept.gpr {s t : State} (h : RegistersKept s t) : t.gpr = s.gpr := by rw [h]

theorem RegistersKept.setStackTop {s t : State} (h : RegistersKept s t) (off : Word32) :
    t.setStackTop off = { t with gpr := { s.gpr with esp := espAfter s.stackSize s.gpr.esp off } } := by
  rw [setStackTop_eq, h.stackSize, h.gpr]

/-! ### One push, one pop -/

theorem toBytes_four (v : Word32) : toBytes 4 v.toNat = bytes32 v := by
  have hbyte (k : Nat) : BitVec.ofNat 8 (v.toNat / 2 ^ k) = field v k 8 := by rw [field, BitVec.extractLsb', Nat.shiftRight_eq_div_pow]
  rw [bytes32, ← hbyte 8, ← hbyte 16, ← hbyte 24, ← hbyte 0, Nat.pow_zero, Nat.div_one]
  simp only [toBytes, Nat.div_div_eq_div_mul]
  rfl

/-- The bytes of the word or double word that a push of size `z` stores. -/
def slotImage : OpSize → Word32 → List Byte
  | .s16, v => bytes16 (low16 v)
  | .s32, v => bytes32 v

theorem toBytes_slotBytes (z : OpSize) (v : Word32) : toBytes (slotBytes z) v.toNat = slotImage z v := by
  cases z with
  | s16 => exact toBytes_two_low16 v
  | s32 => exact toBytes_four v

theorem slotImage_length (z : OpSize) (v : Word32) : (slotImage z v).length = slotBytes z := by
  cases z <;> rfl

/-- The state after `v` is stored at the physical addresses `pas` of the slot of a push, where `t` is what the access left of `s`. -/
def State.pushed (s t : State) (z : OpSize) (v : Word32) (pas : List Word32) : State :=
  { t.storeBytes pas (slotImage z v) with
    gpr := { s.gpr with esp := espAfter s.stackSize s.gpr.esp (s.gpr.esp - BitVec.ofNat 32 (slotBytes z)) } }

section
variable {z : OpSize} {v : Word32} {s t : State} {pas : List Word32}

theorem push_of_operandBytes (h : operandBytes .ss true (s.pushOffset z) (slotBytes z) s = .ok (pas, t))
    (hal : s.misaligned (s.linear .ss (s.pushOffset z)) (slotBytes z) = false) : push z v s = .ok ((), s.pushed t z v pas) := by
  have hkept : RegistersKept s t := keeps_operandBytes registersKept_operandClosed _ _ _ _ _ _ _ h
  have hstored : RegistersKept s (t.storeBytes pas (slotImage z v)) :=
    registersKept_frame.trans _ _ _ hkept (registersKept_operandClosed.store ..)
  rw [push_ok h (by rw [checkAlignment_of_operandBytes h, hal]; rfl), toBytes_slotBytes, hstored.setStackTop, State.pushOffset,
    esp_stackWrap]
  rfl

theorem pop_of_operandBytes (h : operandBytes .ss false s.stackTop (slotBytes z) s = .ok (pas, t))
    (hal : s.misaligned (s.linear .ss s.stackTop) (slotBytes z) = false) :
    pop z s = .ok (BitVec.ofNat 32 (littleEndian (t.bytesAt pas)), { t with
      gpr := { s.gpr with esp := espAfter s.stackSize s.gpr.esp (s.gpr.esp + BitVec.ofNat 32 (slotBytes z)) } }) := by
  have hkept : RegistersKept s t := keeps_operandBytes registersKept_operandClosed _ _ _ _ _ _ _ h
  have hread := lmemRead_of_operandBytes h
  rw [hal, if_neg (by decide)] at hread
  unfold pop
  rw [exec_bind_of_ok (exec_get s), exec_bind_of_ok hread, exec_bind_of_ok (exec_modify ..), exec_pure, hkept.setStackTop,
    esp_stackWrap, esp_stackTop_add]

/-- A push that answers has passed the alignment check. -/
theorem push_ok_inv {a : State} {x : Unit} (h : operandBytes .ss true (s.pushOffset z) (slotBytes z) s = .ok (pas, t))
    (hpush : push z v s = .ok (x, a)) : a = s.pushed t z v pas := by
  cases hal : s.misaligned (s.linear .ss (s.pushOffset z)) (slotBytes z) with
  | false =>
    rw [push_of_operandBytes h hal] at hpush
    cases hpush
    rfl
  | true =>
    have hwrite := lmemWrite_of_operandBytes v.toNat h
    rw [hal, if_pos rfl] at hwrite
    rw [push, exec_bind_of_ok (exec_get s), exec_bind_of_error hwrite] at hpush
    cases hpush

theorem pushed_physByte (a : Word32) : (s.pushed t z v pas).physByte a = (t.storeBytes pas (slotImage z v)).physByte a := rfl

end

/-- The stack pointer in the words of the statement: the low half moves by itself (20_memory.md R144). -/
theorem esp_sub_slotBytes (x z : OpSize) (esp : Word32) : espAfter x esp (esp - BitVec.ofNat 32 (slotBytes z)) = match x with
    | .s32 => esp - BitVec.ofNat 32 (slotBytes z)
    | .s16 => withLow16 esp (low16 esp - BitVec.ofNat 16 (slotBytes z)) := by
  cases x with
  | s32 => rfl
  | s16 => exact congrArg (withLow16 esp) (by rw [low16_sub, low16_ofNat])

theorem esp_add_slotBytes (x z : OpSize) (esp : Word32) : espAfter x esp (esp + BitVec.ofNat 32 (slotBytes z)) = match x with
    | .s32 => esp + BitVec.ofNat 32 (slotBytes z)
    | .s16 => withLow16 esp (low16 esp + BitVec.ofNat 16 (slotBytes z)) := by
  cases x with
  | s32 => rfl
  | s16 => exact congrArg (withLow16 esp) (by rw [low16_add, low16_ofNat])

/-- Settles O24: a push stores its slot at different addresses and moves the stack pointer, a pop reads its slot and moves it back. -/
theorem stackSlots : Obligations.StackSlots := by
  intro z v s t pas hwf
  refine ⟨fun h hal => ⟨_, push_of_operandBytes h hal, ?rest, fun hram => ?stored, fun a ha => ?kept, ?gpr⟩, fun h hal => ?pop⟩
  case rest =>
    rw [State.pushed, storeBytes_eq]
  case stored =>
    have hkept : RegistersKept s t := keeps_operandBytes registersKept_operandClosed _ _ _ _ _ _ _ h
    have hlen : pas.length = (slotImage z v).length := (accessed_operandBytes hwf h).1.trans (slotImage_length z v).symm
    have hslot : slotBytes z ≤ 4096 := by cases z <;> decide
    refine (bytesAt_storeBytes hlen (nodup_operandBytes hslot h) ((hkept.ram pas).trans hram) (marked_operandBytes hwf h).wf).trans ?_
    cases z <;> rfl
  case kept => exact physByte_storeBytes_other _ ha (marked_operandBytes hwf h).wf
  case gpr => exact congrArg (fun e => { s.gpr with esp := e }) (esp_sub_slotBytes ..)
  case pop =>
    exact (pop_of_operandBytes h hal).trans
      (congrArg (fun e => Except.ok (_, { t with gpr := { s.gpr with esp := e } })) (esp_add_slotBytes s.stackSize z s.gpr.esp))

end Sys2Proof.Machine
end

section
/-! PROOFS. The far CALL in Real Mode and Virtual-86 Mode (44_task_and_coprocessor_instructions.md R301; 10_state.md R22, R45, R46). -/

namespace Sys2Proof.Machine

/-! ### What pushes and pops leave -/

/-- `t` is `s` but for the stack pointer, the TLB, memory, the pending debug conditions and the count of free values. -/
def StackKept (s t : State) : Prop :=
  t = { s with gpr := { s.gpr with esp := t.gpr.esp }, tlb := t.tlb, mem := t.mem, pending := t.pending, draws := t.draws }

theorem stackKept_frame : IsFrame StackKept where
  refl _ := rfl
  trans s t u h1 h2 := by
    unfold StackKept at *
    rw [h2, h1]

theorem RegistersKept.stackKept {s t : State} (h : RegistersKept s t) : StackKept s t := by
  rw [h]
  rfl

theorem setStackTop_stackKept (s : State) (off : Word32) : StackKept s (s.setStackTop off) := by
  rw [setStackTop_eq]
  rfl

theorem stackKept_push (z : OpSize) (v : Word32) : Keeps StackKept (push z v) := by
  refine keeps_bind stackKept_frame (keeps_get stackKept_frame) fun s => ?_
  refine keeps_bind stackKept_frame (fun s a t h => ?_) fun _ => keeps_modify fun t => setStackTop_stackKept t _
  exact RegistersKept.stackKept (keeps_lmemWrite registersKept_operandClosed _ _ _ _ s a t h)

theorem stackKept_pop (z : OpSize) : Keeps StackKept (pop z) := by
  refine keeps_bind stackKept_frame (keeps_get stackKept_frame) fun s => ?_
  refine keeps_bind stackKept_frame (fun s a t h => ?_) fun v => ?_
  · exact RegistersKept.stackKept (keeps_lmemRead registersKept_operandClosed _ _ _ s a t h)
  · refine keeps_bind stackKept_frame (keeps_modify fun t => setStackTop_stackKept t _) fun _ => keeps_pure stackKept_frame _

/-- A push changes the bytes of its slot, and accessed and dirty bits of the page entries on the way. -/
theorem push_physByte {z : OpSize} {v : Word32} {s t a : State} {pas : List Word32} {x : Unit} (hwf : Memory.wf s.mem = true)
    (h : operandBytes .ss true (s.pushOffset z) (slotBytes z) s = .ok (pas, t)) (hpush : push z v s = .ok (x, a)) :
    Memory.wf a.mem = true ∧ ∀ b, b ∉ pas → b ∉ s.entriesOf (addrsFrom (s.linear .ss (s.pushOffset z)) (slotBytes z)) →
      a.physByte b = s.physByte b := by
  obtain rfl := push_ok_inv h hpush
  have hmarked := marked_operandBytes hwf h
  refine ⟨storeBytes_wf pas _ hmarked.wf, fun b hb hentry => ?_⟩
  rw [pushed_physByte, physByte_storeBytes_other _ hb hmarked.wf, hmarked.bytes b hentry]

/-! ### The far pointer in memory -/

theorem lmemRead_ok {r : SegReg} {off : Word32} {n v : Nat} {s t : State} (h : lmemRead r off n s = .ok (v, t)) :
    ∃ pas, operandBytes r false off n s = .ok (pas, t) := by
  unfold lmemRead at h
  obtain ⟨pas, u, hbytes, h⟩ := exec_bind_ok h
  rw [exec_bind, checkAlignment_of_operandBytes hbytes] at h
  split at h
  · next hal =>
    split at hal
    · cases hal
    · cases hal
      cases h
      exact ⟨pas, hbytes⟩
  · cases h

theorem entriesOf_subset {s : State} {as bs : List Word32} (h : as ⊆ bs) : s.entriesOf as ⊆ s.entriesOf bs := by
  unfold State.entriesOf
  split
  · intro a ha
    obtain ⟨lin, hlin, hentry⟩ := List.mem_flatMap.mp ha
    exact List.mem_flatMap.mpr ⟨lin, h hlin, hentry⟩
  · exact List.Subset.refl _

/-- The pointer is an operand of four or six bytes (30_encoding.md R203). -/
theorem marked_readFar {p : List Prefix} {o : RmOp} {s c : State} {x : Word32 × Word16} (hwf : Memory.wf s.mem = true)
    (h : readFar p o s = .ok (x, c)) : Marked s c (s.entriesOf (addrsFrom (s.operandAddr p o) 6)) := by
  have hread {n v : Nat} (hn : n ≤ 6) (hr : lmemRead (operandSegment p o) (s.offset o) n s = .ok (v, c)) :
      Marked s c (s.entriesOf (addrsFrom (s.operandAddr p o) 6)) := by
    obtain ⟨pas, hbytes⟩ := lmemRead_ok hr
    exact (marked_operandBytes hwf hbytes).mono (entriesOf_subset (addrsFrom_take _ hn ▸ List.take_subset _ _))
  unfold readFar at h
  obtain ⟨_, _, hget, h⟩ := exec_bind_ok h
  cases hget
  cases hsize : s.operandSize p with
  | s16 =>
    rw [hsize] at h
    obtain ⟨_, _, hr, h⟩ := exec_bind_ok h
    cases h
    exact hread (by decide) hr
  | s32 =>
    rw [hsize] at h
    obtain ⟨_, _, hr, h⟩ := exec_bind_ok h
    cases h
    exact hread (by decide) hr

/-! ### The two forms of the instruction -/

/-- `i` is a far CALL to `sel` and `off`, which are known in state `c`: at once, or when the pointer has been read. -/
def FarCall (p : List Prefix) (f : FarPtr) (o : RmOp) (i : Instr) (s c : State) (off : Word32) (sel : Word16) : Prop :=
  (i = .callPtr p f ∧ off = farOffset f ∧ sel = farSelector f ∧ c = s)
    ∨ (i = .callMem p o ∧ isRegister o = false ∧ readFar p o s = .ok ((off, sel), c))

section
variable {p : List Prefix} {f : FarPtr} {o : RmOp} {i : Instr} {s c : State} {off : Word32} {sel : Word16}
  (h : FarCall p f o i s c off sel)
include h

/-- Either form does in `c` what `callFar` does. -/
theorem FarCall.exec_eq : i.prefixes = p ∧ ∃ body : Exec Unit, exec i s = runTransfer i body s
    ∧ body s = callFar (s.operandSize p) sel off (s.eipPlus i.length) c := by
  obtain ⟨rfl, rfl, rfl, rfl⟩ | ⟨rfl, ho, hread⟩ := h
  · exact ⟨rfl, _, rfl, rfl⟩
  · refine ⟨rfl, _, rfl, ?_⟩
    rw [ho, exec_bind_of_ok (exec_raiseIf_false _ s), exec_bind_of_ok hread]

theorem FarCall.registersKept : RegistersKept s c := by
  obtain ⟨-, -, -, rfl⟩ | ⟨-, -, hread⟩ := h
  · rfl
  · exact keeps_readFar registersKept_operandClosed p o s _ c hread

theorem FarCall.marked (hwf : Memory.wf s.mem = true) : Marked s c (s.entriesOf (addrsFrom (s.operandAddr p o) 6)) := by
  obtain ⟨-, -, -, rfl⟩ | ⟨-, -, hread⟩ := h
  · exact (Marked.refl hwf).mono (List.nil_subset _)
  · exact marked_readFar hwf hread

variable (hp : Plain p)
include hp

theorem FarCall.exec_ok {t : State} (hcall : callFar (s.operandSize p) sel off (s.eipPlus i.length) c = .ok ((), t)) :
    exec i s = .next { t with pending := { t.pending with singleStep := s.tf } } := by
  obtain ⟨rfl, body, hexec, hbody⟩ := h.exec_eq
  rw [hexec, runTransfer_ok hp (hbody.trans hcall)]

theorem FarCall.exec_raises {e : Exn}
    (hcall : callFar (s.operandSize p) sel off (s.eipPlus i.length) c = .error (.exc e)) : exec i s = takeException e s := by
  obtain ⟨rfl, body, hexec, hbody⟩ := h.exec_eq
  rw [hexec, runTransfer_raises hp (hbody.trans hcall)]

theorem FarCall.exec_refused {r : Refusal}
    (hcall : callFar (s.operandSize p) sel off (s.eipPlus i.length) c = .error (.refused r)) : exec i s = .refused r := by
  obtain ⟨rfl, body, hexec, hbody⟩ := h.exec_eq
  rw [hexec, runTransfer_refused hp (hbody.trans hcall)]

end

/-! ### Real Mode and Virtual-86 Mode -/

/-- A jump after a load of CS in a mode without 32-bit code (10_state.md R22, R45). -/
theorem loadReal_jumpTo {t : State} {fl : Word32} (h : t.pe = false ∨ bit fl 17 = true) (sel : Word16) (eip : Word32) :
    (t.loadReal .cs sel).jumpTo eip fl = { t with eip := zext32 (low16 eip), eflags := fl, segs := t.realCs sel } := by
  have hprot : State.prot { t with segs := t.realCs sel, eflags := fl } = false := (Bool.not_eq_true' _).mp (not_prot_iff.mpr h)
  have hsize : State.codeSize { t with segs := t.realCs sel, eflags := fl } = .s16 := by
    rw [State.codeSize, hprot]
    rfl
  rw [State.loadReal_cs, State.jumpTo, State.setEip, hsize, codeOffset_s16]

theorem callFar_real {z : OpSize} {c a b : State} {sel : Word16} {off next : Word32} (hmode : c.pe = false ∨ c.vm = true)
    (hcs : push z (zext32 c.segs.cs.sel) c = .ok ((), a)) (hip : push z next a = .ok ((), b)) :
    callFar z sel off next c = .ok ((), { b with
      eip := zext32 (low16 off), eflags := clearRf c.eflags, segs := c.realCs sel }) := by
  have hkept : StackKept c b := stackKept_frame.trans _ _ _ (stackKept_push _ _ _ _ _ hcs) (stackKept_push _ _ _ _ _ hip)
  have hfl : b.eflags = c.eflags := by rw [hkept]
  have hsegs : b.realCs sel = c.realCs sel := by rw [hkept]; rfl
  have hmode' : b.pe = false ∨ bit (clearRf b.eflags) 17 = true := by
    rw [clearRf_vm, hkept]
    exact hmode
  have hprot : c.prot = false := (Bool.not_eq_true' _).mp (not_prot_iff.mpr hmode)
  unfold callFar callReal
  rw [exec_bind_of_ok (exec_get c), hprot, if_neg (by decide), exec_bind_of_ok (exec_get c), exec_bind_of_ok hcs,
    exec_bind_of_ok hip, exec_modify, loadReal_jumpTo hmode', hfl, hsegs]

/-- Settles O53: either form is `callFar` after the pointer is known, which pushes twice, loads CS and jumps. -/
theorem farCallReal : Obligations.FarCallReal := by
  intro p f o i s c t₁ a t₂ b off sel pas₁ pas₂ hcall hp hmode hwf z hslot₁ hcs hslot₂ hip
  have hfar : FarCall p f o i s c off sel := hcall
  have hc : RegistersKept s c := hfar.registersKept
  have hmarked := hfar.marked hwf
  obtain ⟨hwfa, hbytes₁⟩ := push_physByte hmarked.wf hslot₁ hcs
  obtain ⟨-, hbytes₂⟩ := push_physByte hwfa hslot₂ hip
  refine ⟨?completes, ?frame, hmarked.accessed, fun x hx hx₁ hx₂ => ?bytes⟩
  case completes =>
    have hsel : c.segs.cs.sel = s.segs.cs.sel := by rw [hc]
    have hfl : c.eflags = s.eflags := by rw [hc]
    have hsegs : c.realCs sel = s.realCs sel := by rw [hc]; rfl
    have hmodec : c.pe = false ∨ c.vm = true := by rw [hc]; exact hmode
    rw [hfar.exec_ok hp (callFar_real hmodec (hsel ▸ hcs) hip), hfl, hsegs]
  case frame =>
    have hkept : StackKept s b := stackKept_frame.trans _ _ _ hc.stackKept
      (stackKept_frame.trans _ _ _ (stackKept_push _ _ _ _ _ hcs) (stackKept_push _ _ _ _ _ hip))
    rw [hkept]
  case bytes =>
    simp only [List.mem_append, not_or] at hx
    obtain ⟨hx1, hx2⟩ := hx
    rw [hbytes₂ x hx2 hx₂, hbytes₁ x hx1 hx₁]

end Sys2Proof.Machine
end

section
/-! PROOFS. The far CALL in Protected Mode (44_task_and_coprocessor_instructions.md R301; 20_memory.md R150; 60_exceptions.md R328). -/

namespace Sys2Proof.Machine

theorem RegistersKept.outsideTable_iff {s t : State} (h : RegistersKept s t) (w : Word16) : t.outsideTable w ↔ s.outsideTable w := by
  rw [h]

theorem RegistersKept.cpl {s t : State} (h : RegistersKept s t) : t.cpl = s.cpl := by
  rw [h]
  rfl

/-! ### The TSS that a selector names (R301, R302) -/

section
variable {sel : Word16} {c : State} (busy : Bool) (bad : Exn) (ext : Word32)

/-- A selector that names no descriptor of the GDT (20_memory.md R150; log 39). -/
theorem findTss_bad (h : bit sel 2 = true ∨ field sel 2 14 = 0 ∨ c.outsideTable sel) :
    findTss sel busy bad ext c = .error (.exc bad) := by
  unfold findTss
  cases hbad : selTi sel || selNull sel with
  | true => exact exec_bind_of_error (exec_raiseIf_true ..)
  | false =>
    obtain ⟨hti, hnull⟩ := Bool.or_eq_false_iff.mp hbad
    obtain h | h | h := h
    · exact absurd (h.symm.trans hti) (by decide)
    · exact absurd ((selNull_iff.mpr h).symm.trans hnull) (by decide)
    · rw [exec_bind_of_ok (exec_raiseIf_false _ c), exec_bind_of_error (readDescriptor_outside h bad)]

variable {busy bad ext} {d : SegCache} {u : State} (hti : bit sel 2 = false) (hnull : field sel 2 14 ≠ 0)
  (hread : readDescriptor sel bad c = .ok (d, u))
include hti hnull hread

/-- A descriptor of the GDT is checked for its type, then for presence. -/
theorem findTss_read : findTss sel busy bad ext c
    = (do raiseIf (!d.isTss busy) bad; raiseIf (!d.present) (.np (selCode sel + ext)); pure d : Exec SegCache) u := by
  have hok : (selTi sel || selNull sel) = false := Bool.or_eq_false_iff.mpr ⟨hti, not_selNull hnull⟩
  unfold findTss
  rw [hok, exec_bind_of_ok (exec_raiseIf_false _ c), exec_bind_of_ok hread]

theorem findTss_wrongType (h : ¬ d.isTss busy = true) : findTss sel busy bad ext c = .error (.exc bad) := by
  rw [findTss_read hti hnull hread, Bool.eq_false_of_not_eq_true h]
  exact exec_bind_of_error (exec_raiseIf_true _ u)

/-- A program that asks for the switch leaves EXT clear in the code (60 R322). -/
theorem findTss_absent (h : d.isTss busy = true) (habsent : bit d.attr 7 = false) :
    findTss sel busy bad 0 c = .error (.exc (.np (selCode sel))) := by
  have hp : d.present = false := habsent
  have hcode : selCode sel + 0 = selCode sel := BitVec.add_zero _
  rw [findTss_read hti hnull hread, h, hp, Bool.not_true, exec_bind_of_ok (exec_raiseIf_false _ u), hcode]
  exact exec_bind_of_error (exec_raiseIf_true _ u)

theorem findTss_ok (h : d.isTss busy = true) (hpresent : bit d.attr 7 = true) : findTss sel busy bad ext c = .ok (d, u) := by
  have hp : d.present = true := hpresent
  rw [findTss_read hti hnull hread, h, hp, Bool.not_true, exec_bind_of_ok (exec_raiseIf_false _ u),
    exec_bind_of_ok (exec_raiseIf_false _ u), exec_pure]

end

/-! ### The target by its descriptor (R301) -/

/-- What a far CALL does with the descriptor `d` that its selector names. -/
def callDescriptor (sel : Word16) (d : SegCache) (next : Word32) : Exec Unit := do
  let s ← get
  if d.isSystem 9 || d.isSystem 5 then do
    raiseIf (decide (d.dpl < s.cpl) || decide (d.dpl < selRpl sel)) (.gp (selCode sel))
    if d.isSystem 5 then callGate sel d next else callTss sel d next
  else if d.isCode || d.isSystem 4 || d.isSystem 0xC then refuse .farCallTarget
  else raise (.gp (selCode sel))

section
variable {sel : Word16} {next : Word32} {c : State}

theorem callProtected_null (h : field sel 2 14 = 0) : callProtected sel next c = .error (.exc (.gp 0)) :=
  exec_bind_of_error (raiseIf_raises (selNull_iff.mpr h))

variable (hnull : field sel 2 14 ≠ 0)
include hnull

theorem callProtected_outside (h : c.outsideTable sel) : callProtected sel next c = .error (.exc (.gp (selCode sel))) := by
  unfold callProtected
  rw [not_selNull hnull, exec_bind_of_ok (exec_raiseIf_false _ c), exec_bind_of_error (readDescriptor_outside h _)]

theorem callProtected_read {d : SegCache} {u : State} (hread : readDescriptor sel (.gp (selCode sel)) c = .ok (d, u)) :
    callProtected sel next c = callDescriptor sel d next u := by
  unfold callProtected
  rw [not_selNull hnull, exec_bind_of_ok (exec_raiseIf_false _ c), exec_bind_of_ok hread]
  rfl

end

/-- The DPL of a TSS or of a gate is at least CPL and RPL (R301). -/
def State.reaches (s : State) (sel : Word16) (d : SegCache) : Prop := s.cpl ≤ field d.attr 5 2 ∧ field sel 0 2 ≤ field d.attr 5 2

theorem reaches_iff {s : State} {sel : Word16} {d : SegCache} :
    s.reaches sel d ↔ (decide (d.dpl < s.cpl) || decide (d.dpl < selRpl sel)) = false := by
  rw [Bool.or_eq_false_iff, decide_eq_false_iff_not, decide_eq_false_iff_not, BitVec.not_lt, BitVec.not_lt]
  rfl

section
variable {sel : Word16} {d : SegCache} {next : Word32} {u : State}

theorem callDescriptor_task (htask : (d.isSystem 9 || d.isSystem 5) = true) : callDescriptor sel d next u
    = (do raiseIf (decide (d.dpl < u.cpl) || decide (d.dpl < selRpl sel)) (.gp (selCode sel))
          if d.isSystem 5 then callGate sel d next else callTss sel d next : Exec Unit) u := by
  unfold callDescriptor
  rw [exec_bind_of_ok (exec_get u), if_pos htask]

theorem callDescriptor_unreachable (htask : (d.isSystem 9 || d.isSystem 5) = true) (h : ¬ u.reaches sel d) :
    callDescriptor sel d next u = .error (.exc (.gp (selCode sel))) := by
  rw [callDescriptor_task htask, Bool.eq_true_of_not_eq_false (mt reaches_iff.mpr h)]
  exact exec_bind_of_error (exec_raiseIf_true _ u)

theorem callDescriptor_tss (htype : d.isSystem 9 = true) (hgate : d.isSystem 5 = false) (h : u.reaches sel d) :
    callDescriptor sel d next u = callTss sel d next u := by
  rw [callDescriptor_task (by rw [htype]; rfl), reaches_iff.mp h, exec_bind_of_ok (exec_raiseIf_false _ u), hgate,
    if_neg (by decide)]

theorem callDescriptor_gate (htype : d.isSystem 5 = true) (h : u.reaches sel d) :
    callDescriptor sel d next u = callGate sel d next u := by
  rw [callDescriptor_task (by rw [htype, Bool.or_true]), reaches_iff.mp h, exec_bind_of_ok (exec_raiseIf_false _ u), htype,
    if_pos rfl]

theorem callDescriptor_refused (hother : (d.isSystem 9 || d.isSystem 5) = false)
    (h : (d.isCode || d.isSystem 4 || d.isSystem 0xC) = true) : callDescriptor sel d next u = .error (.refused .farCallTarget) := by
  unfold callDescriptor
  rw [exec_bind_of_ok (exec_get u), hother, if_neg (by decide), if_pos h, exec_refuse]

theorem callDescriptor_none (hother : (d.isSystem 9 || d.isSystem 5) = false)
    (h : (d.isCode || d.isSystem 4 || d.isSystem 0xC) = false) : callDescriptor sel d next u = .error (.exc (.gp (selCode sel))) := by
  unfold callDescriptor
  rw [exec_bind_of_ok (exec_get u), hother, if_neg (by decide), h, if_neg (by decide), exec_raise]

end

theorem isSystem_of_type {d : SegCache} (hsys : bit d.attr 4 = false) (k : BitVec 4) : d.isSystem k = (field d.attr 0 4 == k) := by
  have hs : d.codeOrData = false := hsys
  rw [SegCache.isSystem, hs, Bool.not_false, Bool.true_and]
  rfl

theorem isSystem_of_segment {d : SegCache} (hseg : bit d.attr 4 = true) (k : BitVec 4) : d.isSystem k = false := by
  have hs : d.codeOrData = true := hseg
  rw [SegCache.isSystem, hs, Bool.not_true, Bool.false_and]

theorem isCode_eq (d : SegCache) : d.isCode = (bit d.attr 4 && bit d.attr 3) := rfl

/-- The switch of a CALL saves the next EIP, and EFLAGS with RF clear (R301; 60 R336). -/
theorem callTask_eq {s u : State} (h : RegistersKept s u) (sel : Word16) (d : SegCache) (next : Word32) :
    callTask sel d next u = taskSwitch sel d .call next (clearRf s.eflags) 0 u := by
  have hfl : u.eflags = s.eflags := by rw [h]
  unfold callTask
  rw [exec_bind_of_ok (exec_get u), hfl]

section
variable {sel : Word16} {d : SegCache} {next : Word32} {u : State}

theorem callTss_ti (h : bit sel 2 = true) : callTss sel d next u = .error (.exc (.gp (selCode sel))) :=
  exec_bind_of_error (raiseIf_raises h)

theorem callTss_absent (hti : bit sel 2 = false) (h : bit d.attr 7 = false) :
    callTss sel d next u = .error (.exc (.np (selCode sel))) := by
  have ht : selTi sel = false := hti
  have hp : d.present = false := h
  unfold callTss
  rw [ht, exec_bind_of_ok (exec_raiseIf_false _ u), hp]
  exact exec_bind_of_error (exec_raiseIf_true _ u)

theorem callTss_present (hti : bit sel 2 = false) (h : bit d.attr 7 = true) : callTss sel d next u = callTask sel d next u := by
  have ht : selTi sel = false := hti
  have hp : d.present = true := h
  unfold callTss
  rw [ht, exec_bind_of_ok (exec_raiseIf_false _ u), hp, Bool.not_true, exec_bind_of_ok (exec_raiseIf_false _ u)]

theorem callGate_absent (h : bit d.attr 7 = false) : callGate sel d next u = .error (.exc (.np (selCode sel))) := by
  have hp : d.present = false := h
  unfold callGate
  rw [hp]
  exact exec_bind_of_error (exec_raiseIf_true _ u)

/-- A gate that is present leads to the TSS that it names (R301). -/
theorem callGate_present (h : bit d.attr 7 = true) : callGate sel d next u = (do
    let d' ← findTss (low16 d.base) false (.gp (selCode (low16 d.base))) 0
    callTask (low16 d.base) d' next : Exec Unit) u := by
  have hp : d.present = true := h
  unfold callGate
  rw [hp, Bool.not_true, exec_bind_of_ok (exec_raiseIf_false _ u)]

end

/-- Settles O54: the selector, its descriptor by type, and for a gate the TSS that it names, each checked in the order of R301. -/
theorem farCallToTask : Obligations.FarCallToTask := by
  intro p f o i s c off sel hcall hp hprot next stepped code
  obtain ⟨off', hfar⟩ : ∃ off', FarCall p f o i s c off' sel := by
    obtain ⟨hi, hsel, hc⟩ | hmem := hcall
    · exact ⟨_, .inl ⟨hi, rfl, hsel, hc⟩⟩
    · exact ⟨off, .inr hmem⟩
  have hc : RegistersKept s c := hfar.registersKept
  have hcallFar : callFar (s.operandSize p) sel off' next c = callProtected sel next c := by
    have hprotc : c.prot = true := by rw [hc]; exact hprot
    rw [callFar, exec_bind_of_ok (exec_get c), hprotc, if_pos rfl]
  refine ⟨fun hnull => ?_, fun hnull hout => ?_, fun d u hnull hread => ?_⟩
  · exact hfar.exec_raises hp (hcallFar.trans (callProtected_null hnull))
  · exact hfar.exec_raises hp (hcallFar.trans (callProtected_outside hnull ((hc.outsideTable_iff sel).mpr hout)))
  have hu : RegistersKept s u := registersKept_readDescriptor hc hread
  have hdescriptor : callFar (s.operandSize p) sel off' next c = callDescriptor sel d next u :=
    hcallFar.trans (callProtected_read hnull hread)
  have raises {e : Exn} (h : callDescriptor sel d next u = .error (.exc e)) : exec i s = takeException e s :=
    hfar.exec_raises hp (hdescriptor.trans h)
  have completes {t : State} (h : callDescriptor sel d next u = .ok ((), t)) : exec i s = .next (stepped t) :=
    hfar.exec_ok hp (hdescriptor.trans h)
  have hreaches : (s.cpl ≤ field d.attr 5 2 ∧ field sel 0 2 ≤ field d.attr 5 2) ↔ u.reaches sel d := by
    rw [State.reaches, hu.cpl]
  intro type reachable
  refine ⟨fun hsys htype hunreachable => ?unreachable, fun hsys htype hreachable => ?tss, fun hsys htype hreachable => ?gate,
    fun hrefused => ?refused, fun hnone => ?none⟩
  case unreachable =>
    refine raises (callDescriptor_unreachable ?_ (mt hreaches.mpr hunreachable))
    rw [isSystem_of_type hsys, isSystem_of_type hsys]
    simpa using htype
  case tss =>
    have htss : callDescriptor sel d next u = callTss sel d next u :=
      callDescriptor_tss (isSystem_iff.mpr ⟨hsys, htype⟩) (by rw [isSystem_of_type hsys]; simp [show field d.attr 0 4 = 9 from htype])
        (hreaches.mp hreachable)
    refine ⟨fun hti => raises (htss.trans (callTss_ti hti)), fun hti habsent => raises (htss.trans (callTss_absent hti habsent)),
      fun hti hpresent t ht => completes ?_⟩
    rw [htss, callTss_present hti hpresent, callTask_eq hu, ht]
  case gate =>
    have hgate : callDescriptor sel d next u = callGate sel d next u :=
      callDescriptor_gate (isSystem_iff.mpr ⟨hsys, htype⟩) (hreaches.mp hreachable)
    refine ⟨fun habsent => raises (hgate.trans (callGate_absent habsent)), fun hpresent => ?_⟩
    rw [callGate_present hpresent] at hgate
    refine ⟨fun hbad => raises ?_, fun d₂ u₂ hti hnull₂ hread₂ => ?_⟩
    · refine hgate.trans (exec_bind_of_error (findTss_bad _ _ _ ?_))
      rwa [hu.outsideTable_iff]
    · have hu₂ : RegistersKept s u₂ := registersKept_readDescriptor hu hread₂
      have havailable : (bit d₂.attr 4 = false ∧ (field d₂.attr 0 4 = 9 ∨ field d₂.attr 0 4 = 1)) ↔ d₂.isTss false = true := by
        rw [isTss_available_iff, or_comm]
      refine ⟨fun hwrong => raises ?_, fun hok habsent => raises ?_, fun hok hpresent₂ t ht => completes ?_⟩
      · exact hgate.trans (exec_bind_of_error (findTss_wrongType hti hnull₂ hread₂ (mt havailable.mpr hwrong)))
      · exact hgate.trans (exec_bind_of_error (findTss_absent hti hnull₂ hread₂ (havailable.mp hok) habsent))
      · rw [hgate, exec_bind_of_ok (findTss_ok hti hnull₂ hread₂ (havailable.mp hok) hpresent₂), callTask_eq hu₂, ht]
  case refused =>
    obtain ⟨hseg, hcode⟩ | ⟨hsys, htype⟩ := hrefused
    · refine hfar.exec_refused hp (hdescriptor.trans (callDescriptor_refused ?_ ?_))
      · rw [isSystem_of_segment hseg, isSystem_of_segment hseg]; rfl
      · rw [isCode_eq, hseg, hcode]; rfl
    · refine hfar.exec_refused hp (hdescriptor.trans (callDescriptor_refused ?_ ?_))
      all_goals
        simp only [isSystem_of_type hsys, isCode_eq, hsys]
        obtain h | h := htype <;> simp [show field d.attr 0 4 = _ from h]
  case none =>
    obtain ⟨hseg, hdata⟩ | ⟨hsys, htypes⟩ := hnone
    · refine raises (callDescriptor_none ?_ ?_)
      · rw [isSystem_of_segment hseg, isSystem_of_segment hseg]; rfl
      · rw [isCode_eq, hdata, isSystem_of_segment hseg, isSystem_of_segment hseg, Bool.and_false]; rfl
    · obtain ⟨h9, h5, h4, hC⟩ : field d.attr 0 4 ≠ 9 ∧ field d.attr 0 4 ≠ 5 ∧ field d.attr 0 4 ≠ 4 ∧ field d.attr 0 4 ≠ 0xC := htypes
      refine raises (callDescriptor_none ?_ ?_)
      · simp only [isSystem_of_type hsys, beq_false_of_ne h9, beq_false_of_ne h5, Bool.or_false]
      · simp only [isSystem_of_type hsys, isCode_eq, hsys, beq_false_of_ne h4, beq_false_of_ne hC, Bool.false_and, Bool.or_false]

end Sys2Proof.Machine
end

section
/-! PROOFS. The flags that IRET loads (44_task_and_coprocessor_instructions.md R302; 60_exceptions.md R336, R371). -/

namespace Sys2Proof.Machine

/-! ### An image as EFLAGS holds it (10_state.md R36; D13) -/

/-- The flags that EFLAGS holds on every part, ID apart. -/
def heldFlags : List Nat := [0, 2, 4, 6, 7, 8, 9, 10, 11, 12, 13, 14, 16, 17, 18, 19, 20]

theorem bit_fixImage {k : Nat} (hk : k ∈ heldFlags) (s : State) (v : Word32) : bit (s.fixImage v) k = bit v k := by
  have hheld : bit (eflagsHeld s.part) k = true ∧ bit (2 : Word32) k = false := by
    unfold eflagsHeld
    split <;> revert k <;> decide
  rw [fixImage_eq, bit_or, bit_and, hheld.1, hheld.2, Bool.and_true, Bool.or_false]

/-- ID is held by a part with CPUID only. -/
theorem bit_fixImage_id (s : State) (v : Word32) : bit (s.fixImage v) 21 = (bit v 21 && s.part.features.cpuid) := by
  have hheld : bit (eflagsHeld s.part) 21 = s.part.features.cpuid := by
    unfold eflagsHeld
    cases s.part.features.cpuid <;> decide
  rw [fixImage_eq, bit_or, bit_and, hheld]
  exact Bool.or_false _

theorem bit_clearRf (v : Word32) {k : Nat} (hk : k ≠ 16) : bit (clearRf v) k = bit v k := by
  rw [clearRf, bit_setBit, if_neg (fun h => hk h.1.symm)]

theorem bit_clearRf_rf (v : Word32) : bit (clearRf v) 16 = false := by
  rw [clearRf, bit_setBit, if_pos ⟨rfl, by decide⟩]

/-! ### The mask of IRET (R302) -/

/-- The mask of `State.iretMask` by its three conditions: CPL is at most IOPL, Protected Mode, and CPL = 0. -/
def maskBy (z : OpSize) (ifLoads pe top : Bool) : Word32 :=
  let all := eflagsAlways ||| (if ifLoads then 0x00000200 else 0) ||| (if pe then if top then 0x001A3000 else 0 else 0x00183000)
  match z with
  | .s16 => all &&& 0x0000FFFF
  | .s32 => all

theorem iretMask_eq (s : State) (z : OpSize) :
    s.iretMask z = maskBy z (!s.pe || decide (s.cpl ≤ s.iopl)) s.pe (decide (s.cpl = 0)) := by
  unfold State.iretMask maskBy
  cases s.pe <;> simp only [decide_eq_true_eq] <;> rfl

section
variable (s : State)

/-- CF, PF, AF, ZF, SF, TF, DF, OF and NT are always loaded. -/
theorem bit_iretMask_always (z : OpSize) {k : Nat} (hk : k ∈ [0, 2, 4, 6, 7, 8, 10, 11, 14]) : bit (s.iretMask z) k = true := by
  have hall : ∀ (i pe top : Bool), ∀ k ∈ [0, 2, 4, 6, 7, 8, 10, 11, 14], bit (maskBy z i pe top) k = true := by
    cases z <;> decide
  rw [iretMask_eq, hall _ _ _ k hk]

/-- IF is loaded in Real Mode and with CPL at most IOPL. -/
theorem bit_iretMask_if (z : OpSize) : bit (s.iretMask z) 9 = (!s.pe || decide (s.cpl ≤ s.iopl)) := by
  have hall : ∀ i pe top : Bool, bit (maskBy z i pe top) 9 = i := by cases z <;> decide
  rw [iretMask_eq, hall]

/-- IOPL is loaded in Real Mode and at level 0. -/
theorem bit_iretMask_iopl (z : OpSize) {k : Nat} (hk : k ∈ [12, 13]) : bit (s.iretMask z) k = (!s.pe || decide (s.cpl = 0)) := by
  have hall : ∀ (i pe top : Bool), ∀ k ∈ [12, 13], bit (maskBy z i pe top) k = (!pe || top) := by cases z <;> decide
  rw [iretMask_eq, hall _ _ _ k hk]

/-- RF, AC and ID are loaded by a 32-bit IRET. -/
theorem bit_iretMask_high {k : Nat} (hk : k ∈ [16, 18, 21]) : bit (s.iretMask .s32) k = true := by
  have hall : ∀ (i pe top : Bool), ∀ k ∈ [16, 18, 21], bit (maskBy .s32 i pe top) k = true := by decide
  rw [iretMask_eq, hall _ _ _ k hk]

/-- VM is loaded by a 32-bit IRET at level 0 of Protected Mode. -/
theorem bit_iretMask_vm_s32 : bit (s.iretMask .s32) 17 = (s.pe && decide (s.cpl = 0)) := by
  have hall : ∀ i pe top : Bool, bit (maskBy .s32 i pe top) 17 = (pe && top) := by decide
  rw [iretMask_eq, hall]

/-- VIF and VIP are loaded by a 32-bit IRET in Real Mode and at level 0. -/
theorem bit_iretMask_vif {k : Nat} (hk : k ∈ [19, 20]) : bit (s.iretMask .s32) k = (!s.pe || decide (s.cpl = 0)) := by
  have hall : ∀ (i pe top : Bool), ∀ k ∈ [19, 20], bit (maskBy .s32 i pe top) k = (!pe || top) := by decide
  rw [iretMask_eq, hall _ _ _ k hk]

/-- A 16-bit IRET loads no flag of the upper half. -/
theorem bit_iretMask_s16 {k : Nat} (hk : k ∈ [16, 17, 18, 19, 20]) : bit (s.iretMask .s16) k = false := by
  have hall : ∀ (i pe top : Bool), ∀ k ∈ [16, 17, 18, 19, 20], bit (maskBy .s16 i pe top) k = false := by decide
  rw [iretMask_eq, hall _ _ _ k hk]

/-! ### EFLAGS after an IRET -/

variable (z : OpSize) (fl : Word32)

/-- A held flag comes from the image where the mask has it, and from EFLAGS without RF otherwise. -/
theorem bit_iretEflags {k : Nat} (hk : k ∈ heldFlags) :
    bit (s.iretEflags z fl) k = if bit (s.iretMask z) k then bit fl k else bit (clearRf s.eflags) k := by
  have hlt : k < 32 := (by decide : ∀ k ∈ heldFlags, k < 32) k hk
  rw [State.iretEflags, bit_fixImage hk, bit_merge _ _ _ hlt]

theorem bit_iretEflags_always {k : Nat} (hk : k ∈ [0, 2, 4, 6, 7, 8, 10, 11, 14]) : bit (s.iretEflags z fl) k = bit fl k := by
  have hheld : k ∈ heldFlags := (by decide : ∀ k ∈ [0, 2, 4, 6, 7, 8, 10, 11, 14], k ∈ heldFlags) k hk
  rw [bit_iretEflags s z fl hheld, bit_iretMask_always s z hk, if_pos rfl]

theorem bit_iretEflags_if :
    bit (s.iretEflags z fl) 9 = if s.pe = false ∨ s.cpl ≤ s.iopl then bit fl 9 else bit s.eflags 9 := by
  rw [bit_iretEflags s z fl (by decide), bit_iretMask_if, bit_clearRf _ (by decide)]
  simp only [Bool.or_eq_true, Bool.not_eq_true', decide_eq_true_eq]

theorem iopl_iretEflags :
    field (s.iretEflags z fl) 12 2 = if s.pe = false ∨ s.cpl = 0 then field fl 12 2 else s.iopl := by
  have hbit : ∀ k ∈ [12, 13], bit (s.iretEflags z fl) k = if s.pe = false ∨ s.cpl = 0 then bit fl k else bit s.eflags k := by
    intro k hk
    have hheld := (by decide : ∀ k ∈ [12, 13], k ∈ heldFlags ∧ k ≠ 16) k hk
    rw [bit_iretEflags s z fl hheld.1, bit_iretMask_iopl s z hk, bit_clearRf _ hheld.2]
    simp only [Bool.or_eq_true, Bool.not_eq_true', decide_eq_true_eq]
  refine BitVec.eq_of_getLsbD_eq fun j hj => ?_
  have hk : 12 + j ∈ [12, 13] := (by decide : ∀ j < 2, 12 + j ∈ [12, 13]) j hj
  rw [getLsbD_field, ← bit, hbit _ hk]
  split <;> simp only [State.iopl, getLsbD_field, bit]

theorem bit_iretEflags_high {k : Nat} (hk : k ∈ [16, 18]) : bit (s.iretEflags .s32 fl) k = bit fl k := by
  have hin := (by decide : ∀ k ∈ [16, 18], k ∈ heldFlags ∧ k ∈ [16, 18, 21]) k hk
  rw [bit_iretEflags s .s32 fl hin.1, bit_iretMask_high s hin.2, if_pos rfl]

theorem bit_iretEflags_vm_s32 :
    bit (s.iretEflags .s32 fl) 17 = if s.pe = true ∧ s.cpl = 0 then bit fl 17 else bit s.eflags 17 := by
  rw [bit_iretEflags s .s32 fl (by decide), bit_iretMask_vm_s32, bit_clearRf _ (by decide)]
  simp only [Bool.and_eq_true, decide_eq_true_eq]

theorem bit_iretEflags_vif {k : Nat} (hk : k ∈ [19, 20]) :
    bit (s.iretEflags .s32 fl) k = if s.pe = false ∨ s.cpl = 0 then bit fl k else bit s.eflags k := by
  have hheld := (by decide : ∀ k ∈ [19, 20], k ∈ heldFlags ∧ k ≠ 16) k hk
  rw [bit_iretEflags s .s32 fl hheld.1, bit_iretMask_vif s hk, bit_clearRf _ hheld.2]
  simp only [Bool.or_eq_true, Bool.not_eq_true', decide_eq_true_eq]

theorem bit_iretEflags_id : bit (s.iretEflags .s32 fl) 21 = (bit fl 21 && s.part.features.cpuid) := by
  rw [State.iretEflags, bit_fixImage_id, bit_merge _ _ _ (by decide), bit_iretMask_high s (by decide), if_pos rfl]

/-- A 16-bit IRET keeps the flags of the upper half, and clears RF. -/
theorem bit_iretEflags_s16 {k : Nat} (hk : k ∈ [16, 17, 18, 19, 20]) :
    bit (s.iretEflags .s16 fl) k = bit (clearRf s.eflags) k := by
  have hheld : k ∈ heldFlags := (by decide : ∀ k ∈ [16, 17, 18, 19, 20], k ∈ heldFlags) k hk
  rw [bit_iretEflags s .s16 fl hheld, bit_iretMask_s16 s hk, if_neg Bool.false_ne_true]

/-- VM comes from the image of a 32-bit IRET at level 0 of Protected Mode. -/
theorem bit_iretEflags_vm_kept (h : ¬ (bit fl 17 = true ∧ s.pe = true ∧ s.cpl = 0 ∧ z = .s32)) (hvm : s.vm = false ∨ s.cpl ≠ 0) :
    bit (s.iretEflags z fl) 17 = s.vm := by
  cases z with
  | s16 => exact (bit_iretEflags_s16 s fl (by decide)).trans (bit_clearRf _ (by decide))
  | s32 =>
    rw [bit_iretEflags_vm_s32]
    split
    · next hload =>
      have hpopped : bit fl 17 = false := Bool.eq_false_of_not_eq_true fun hp => h ⟨hp, hload.1, hload.2, rfl⟩
      obtain hvm | hcpl := hvm
      · rw [hpopped, hvm]
      · exact absurd hload.2 hcpl
    · rfl

/-! ### EFLAGS after an IRET with the virtual interrupt flag (60_exceptions.md R371) -/

/-- The flags the virtual IRET takes from the image. -/
theorem bit_virtualIretEflags_image {k : Nat} (hk : k ∈ [0, 2, 4, 6, 7, 8, 10, 11, 14]) :
    bit (s.virtualIretEflags (low16 fl)) k = bit fl k := by
  have hin := (by decide : ∀ k ∈ [0, 2, 4, 6, 7, 8, 10, 11, 14],
    k ∈ heldFlags ∧ k ≠ 19 ∧ k < 16 ∧ bit (0x00004DD5 : Word32) k = true) k hk
  obtain ⟨hheld, h19, hlt, hmask⟩ := hin
  rw [State.virtualIretEflags, bit_fixImage hheld, bit_setBit, if_neg (fun h => h19 h.1.symm), bit_merge _ _ _ (by omega), hmask,
    if_pos rfl]
  simp only [zext32, low16, bit, BitVec.getLsbD_setWidth]
  simp only [hlt, (by omega : k < 32), decide_true, Bool.true_and]

/-- VIF takes the IF of the image. -/
theorem bit_virtualIretEflags_vif : bit (s.virtualIretEflags (low16 fl)) 19 = bit fl 9 := by
  rw [State.virtualIretEflags, bit_fixImage (by decide), bit_setBit, if_pos ⟨rfl, by decide⟩]
  simp [low16, bit]

/-- The flags the virtual IRET keeps, RF cleared. -/
theorem bit_virtualIretEflags_kept (f : Word16) {k : Nat} (hk : k ∈ [9, 12, 13, 16, 17, 18, 20]) :
    bit (s.virtualIretEflags f) k = bit (clearRf s.eflags) k := by
  have hin := (by decide : ∀ k ∈ [9, 12, 13, 16, 17, 18, 20],
    k ∈ heldFlags ∧ k ≠ 19 ∧ k < 32 ∧ bit (0x00004DD5 : Word32) k = false) k hk
  obtain ⟨hheld, h19, hlt, hmask⟩ := hin
  rw [State.virtualIretEflags, bit_fixImage hheld, bit_setBit, if_neg (fun h => h19 h.1.symm), bit_merge _ _ _ hlt, hmask,
    if_neg Bool.false_ne_true]

end

end Sys2Proof.Machine
end

section
/-! PROOFS. IRET in Real Mode, in Virtual-86 Mode and to another task (44_task_and_coprocessor_instructions.md R302, R303; 60_exceptions.md
R351, R371). -/

namespace Sys2Proof.Machine

/-! ### The instruction and its body -/

theorem prot_iff {s : State} : s.prot = true ↔ s.pe = true ∧ s.vm = false := by
  rw [State.prot, Bool.and_eq_true, Bool.not_eq_true']

theorem v86_iff {s : State} : s.v86 = true ↔ s.pe = true ∧ s.vm = true := Bool.and_eq_true_iff

theorem cpl_of_v86 {s : State} (h : s.v86 = true) : s.cpl = 3 := by
  obtain ⟨hpe, hvm⟩ := v86_iff.mp h
  rw [State.cpl, hpe, hvm]
  rfl

/-- The end of an IRET: NMIs are taken again, and single step follows if TF was 1. -/
def State.returned (s t : State) : State := { t with nmiBlocked := false, pending := { t.pending with singleStep := s.tf } }

section
variable {p : List Prefix} {s : State} (hp : Plain p)
include hp

theorem exec_iret_ok {t : State} (h : iretBody (s.operandSize p) (s.eipPlus (Instr.iret p).length) s = .ok ((), t)) :
    exec (.iret p) s = .next (s.returned t) := by
  have hbody : returnFromException (s.operandSize p) (s.eipPlus (Instr.iret p).length) s = .ok ((), { t with nmiBlocked := false }) :=
    exec_bind_of_ok h
  exact runTransfer_ok (i := .iret p) hp hbody

theorem exec_iret_raises {e : Exn} (h : iretBody (s.operandSize p) (s.eipPlus (Instr.iret p).length) s = .error (.exc e)) :
    exec (.iret p) s = takeException e s :=
  runTransfer_raises (i := .iret p) hp (exec_bind_of_error h)

end

section
variable {z : OpSize} {next : Word32} {s : State}

theorem iretBody_real (h : s.pe = false ∨ (s.v86 = true ∧ s.iopl = 3)) : iretBody z next s = iretReal z s := by
  unfold iretBody
  rw [exec_bind_of_ok (exec_get s)]
  cases hpe : s.pe with
  | false => rfl
  | true =>
    obtain hreal | ⟨hv86, hiopl⟩ := h
    · exact absurd (hpe.symm.trans hreal) (by decide)
    · have hvm : s.vm = true := (v86_iff.mp hv86).2
      rw [hvm, if_pos hiopl]
      rfl

theorem iretBody_v86 (h : s.v86 = true) (hiopl : s.iopl ≠ 3) :
    iretBody z next s = (if s.vme && z == .s16 then iretVirtual else raise (.gp 0) : Exec Unit) s := by
  obtain ⟨hpe, hvm⟩ := v86_iff.mp h
  unfold iretBody
  rw [exec_bind_of_ok (exec_get s), hpe, hvm, if_neg hiopl]
  rfl

theorem iretBody_task (h : s.prot = true) (hnt : s.nt = true) : iretBody z next s = iretTask next s := by
  obtain ⟨hpe, hvm⟩ := prot_iff.mp h
  unfold iretBody
  rw [exec_bind_of_ok (exec_get s), hpe, hvm, hnt]
  rfl

theorem iretBody_prot (h : s.prot = true) (hnt : s.nt = false) : iretBody z next s = (do
    let (eip, cs, fl) ← popFrame z
    if bit fl 17 && s.cpl == 0 && z == .s32 then iretToV86 eip cs fl else iretProtected z eip cs fl : Exec Unit) s := by
  obtain ⟨hpe, hvm⟩ := prot_iff.mp h
  unfold iretBody
  rw [exec_bind_of_ok (exec_get s), hpe, hvm, hnt]
  rfl

end

/-! ### The three values popped -/

theorem popFrame_ok {z : OpSize} {s a b t : State} {eip cs fl : Word32} (heip : pop z s = .ok (eip, a)) (hcs : pop z a = .ok (cs, b))
    (hfl : pop z b = .ok (fl, t)) : popFrame z s = .ok ((eip, low16 cs, fl), t) := by
  unfold popFrame
  rw [exec_bind_of_ok heip, exec_bind_of_ok hcs, exec_bind_of_ok hfl, exec_pure]

theorem StackKept.paging {s t : State} (h : StackKept s t) : t.paging = s.paging := by
  rw [h]
  rfl

/-- With paging off a pop changes no byte. -/
theorem pop_flat_mem {z : OpSize} {s t : State} {v : Word32} (hflat : s.paging = false) (h : pop z s = .ok (v, t)) : t.mem = s.mem := by
  unfold pop at h
  obtain ⟨_, _, hget, h⟩ := exec_bind_ok h
  cases hget
  obtain ⟨_, u, hread, h⟩ := exec_bind_ok h
  obtain ⟨_, _, hmodify, h⟩ := exec_bind_ok h
  cases hmodify
  cases h
  obtain ⟨pas, hbytes⟩ := lmemRead_ok hread
  obtain ⟨-, -, -, rfl⟩ := operandBytes_flat_ok hflat hbytes
  exact setStackTop_mem (s.noted _) _

/-! ### Real Mode, and Virtual-86 Mode with IOPL = 3 -/

/-- VM stays set in Virtual-86 Mode (R302). -/
theorem bit_iretEflags_of_v86 {s : State} (h : s.v86 = true) (z : OpSize) (fl : Word32) : bit (s.iretEflags z fl) 17 = true := by
  have hcpl : s.cpl ≠ 0 := by rw [cpl_of_v86 h]; decide
  rw [bit_iretEflags_vm_kept s z fl (fun hload => hcpl hload.2.2.1) (.inr hcpl), (v86_iff.mp h).2]

theorem iretReal_ok {z : OpSize} {s t : State} {eip fl : Word32} {sel : Word16} (hmode : s.pe = false ∨ (s.v86 = true ∧ s.iopl = 3))
    (hpops : popFrame z s = .ok ((eip, sel, fl), t)) (hkept : StackKept s t) :
    iretReal z s = .ok ((), { t with eip := zext32 (low16 eip), segs := s.realCs sel, eflags := s.iretEflags z fl }) := by
  have hpe : t.pe = s.pe := by rw [hkept]; rfl
  have hsegs : t.realCs sel = s.realCs sel := by rw [hkept]; rfl
  have hjump : t.pe = false ∨ bit (s.iretEflags z fl) 17 = true := by
    obtain hreal | ⟨hv86, -⟩ := hmode
    · exact .inl (hpe.trans hreal)
    · exact .inr (bit_iretEflags_of_v86 hv86 z fl)
  unfold iretReal
  rw [exec_bind_of_ok (exec_get s), exec_bind_of_ok hpops]
  dsimp only
  rw [exec_modify, loadReal_jumpTo hjump, hsegs]

/-- The state after a word is popped with paging off. -/
def State.poppedWord (s : State) : State :=
  { s.noted (.data false (s.linear .ss (zext32 (low16 s.gpr.esp))) 2) with
    gpr := { s.gpr with esp := withLow16 s.gpr.esp (low16 s.gpr.esp + 2) } }

/-- A pop of a word that does not wrap inside the word, in Real Mode. -/
theorem pop_real {s : State} (hreal : s.pe = false) (hsp : low16 s.gpr.esp ≠ 0xFFFF)
    (hdev : s.deviceAt (addrsFrom (s.linear .ss (zext32 (low16 s.gpr.esp))) 2) = false) :
    pop .s16 s = .ok (zext32 (s.phys16 (s.linear .ss (zext32 (low16 s.gpr.esp)))), s.poppedWord) := by
  have hprot : s.prot = false := by rw [State.prot, hreal]; rfl
  have hsize : s.stackSize = .s16 := by rw [State.stackSize, hprot]; rfl
  have htop : s.stackTop = zext32 (low16 s.gpr.esp) := by rw [State.stackTop, State.stackWrap, hsize]
  have hflat : s.paging = false := by rw [State.paging, hreal, Bool.and_false]
  have hallow : s.segAllows .ss false s.stackTop 2 = true := by
    rw [segAllows_iff_of_not_prot hprot, htop]
    have hlt := (low16 s.gpr.esp).isLt
    have hne : (low16 s.gpr.esp).toNat ≠ 0xFFFF := fun h => hsp (BitVec.eq_of_toNat_eq h)
    simp only [zext32, BitVec.toNat_setWidth]
    omega
  have hal : s.misaligned (s.linear .ss s.stackTop) 2 = false := by
    rw [State.misaligned, hreal, Bool.and_false, Bool.false_and, Bool.false_and]
  have hesp : espAfter s.stackSize s.gpr.esp (s.gpr.esp + BitVec.ofNat 32 (slotBytes .s16))
      = withLow16 s.gpr.esp (low16 s.gpr.esp + 2) := by rw [esp_add_slotBytes, hsize]; rfl
  have hpop := pop_of_operandBytes (z := .s16) (operandBytes_flat (n := 2) hflat hallow (htop ▸ hdev)) hal
  rw [hesp, bytesAt_two, littleEndian_two, BitVec.ofNat_toNat, htop] at hpop
  exact hpop

section
variable (s : State)

@[simp] theorem poppedWord_gpr : s.poppedWord.gpr = { s.gpr with esp := withLow16 s.gpr.esp (low16 s.gpr.esp + 2) } := rfl

theorem poppedWord_low16 : low16 s.poppedWord.gpr.esp = low16 s.gpr.esp + 2 := low16_withLow16 ..

end

/-- IRET in Real Mode pops the three words at SS:SP. -/
theorem popFrame_real {s : State} (hreal : s.pe = false) {sp : Word16} (hesp : low16 s.gpr.esp = sp) (hsp : sp ≠ 0xFFFF)
    (hsp₂ : sp ≠ 0xFFFD) (hsp₄ : sp ≠ 0xFFFB)
    (hdev : s.deviceAt (addrsFrom (s.linear .ss (zext32 sp)) 2 ++ addrsFrom (s.linear .ss (zext32 (sp + 2))) 2
      ++ addrsFrom (s.linear .ss (zext32 (sp + 4))) 2) = false) :
    popFrame .s16 s = .ok ((zext32 (s.phys16 (s.linear .ss (zext32 sp))), s.phys16 (s.linear .ss (zext32 (sp + 2))),
      zext32 (s.phys16 (s.linear .ss (zext32 (sp + 4))))), s.poppedWord.poppedWord.poppedWord) := by
  obtain ⟨hdev, hdev₄⟩ := deviceAt_append_eq_false_iff.mp hdev
  obtain ⟨hdev, hdev₂⟩ := deviceAt_append_eq_false_iff.mp hdev
  have hesp₂ : low16 s.poppedWord.gpr.esp = sp + 2 := (poppedWord_low16 s).trans (congrArg (· + 2) hesp)
  have hesp₄ : low16 s.poppedWord.poppedWord.gpr.esp = sp + 4 := by
    rw [poppedWord_low16, hesp₂, BitVec.add_assoc]
    rfl
  have heip := pop_real hreal (hesp ▸ hsp) (by rw [hesp]; exact hdev)
  have hcs := pop_real (s := s.poppedWord) hreal (by rw [hesp₂]; bv_omega) (by rw [hesp₂]; exact hdev₂)
  have hfl := pop_real (s := s.poppedWord.poppedWord) hreal (by rw [hesp₄]; bv_omega) (by rw [hesp₄]; exact hdev₄)
  rw [hesp] at heip
  rw [hesp₂] at hcs
  rw [hesp₄] at hfl
  refine (popFrame_ok heip hcs hfl).trans ?_
  rw [low16_zext32]
  rfl

/-- IRET in Real Mode, from the words at SS:SP (R302). -/
theorem iretReal_words {s : State} (hreal : s.pe = false) {sp : Word16} (hesp : low16 s.gpr.esp = sp) (hsp : sp ≠ 0xFFFF)
    (hsp₂ : sp ≠ 0xFFFD) (hsp₄ : sp ≠ 0xFFFB)
    (hdev : s.deviceAt (addrsFrom (s.linear .ss (zext32 sp)) 2 ++ addrsFrom (s.linear .ss (zext32 (sp + 2))) 2
      ++ addrsFrom (s.linear .ss (zext32 (sp + 4))) 2) = false) :
    iretReal .s16 s = .ok ((), { s with
      eip := zext32 (s.phys16 (s.linear .ss (zext32 sp))), segs := s.realCs (s.phys16 (s.linear .ss (zext32 (sp + 2))))
      eflags := s.iretEflags .s16 (zext32 (s.phys16 (s.linear .ss (zext32 (sp + 4)))))
      gpr := { s.gpr with esp := withLow16 s.gpr.esp (sp + 6) }
      pending := s.poppedWord.poppedWord.poppedWord.pending, draws := s.poppedWord.poppedWord.poppedWord.draws }) := by
  have hgpr : s.poppedWord.poppedWord.poppedWord.gpr = { s.gpr with esp := withLow16 s.gpr.esp (sp + 6) } := by
    simp only [poppedWord_gpr, low16_withLow16, withLow16_withLow16, hesp, BitVec.add_assoc]
    rfl
  refine (iretReal_ok (.inl hreal) (popFrame_real hreal hesp hsp hsp₂ hsp₄ hdev) rfl).trans ?_
  rw [low16_zext32, hgpr]
  rfl

/-! ### Virtual-86 Mode with IOPL below 3 -/

section
variable {s t : State} {eip fl : Word32} {sel : Word16} (hpops : popFrame .s16 s = .ok ((eip, sel, fl), t))
include hpops

theorem iretVirtual_raises (h : bit fl 8 = true ∨ (bit fl 9 = true ∧ bit s.eflags 20 = true)) :
    iretVirtual s = .error (.exc (.gp 0)) := by
  unfold iretVirtual
  rw [exec_bind_of_ok (exec_get s), exec_bind_of_ok hpops]
  dsimp only
  cases htf : bit fl 8 with
  | true => exact exec_bind_of_error (raiseIf_raises rfl)
  | false =>
    obtain h | ⟨hif, hvip⟩ := h
    · exact absurd (htf.symm.trans h) (by decide)
    · have hvip' : s.vip = true := hvip
      rw [exec_bind_of_ok (exec_raiseIf_false _ t), hif, hvip']
      exact exec_bind_of_error (raiseIf_raises rfl)

theorem iretVirtual_ok (hkept : StackKept s t) (hv86 : s.v86 = true) (htf : bit fl 8 = false)
    (hvip : bit fl 9 = false ∨ bit s.eflags 20 = false) : iretVirtual s = .ok ((), { t with
      eip := zext32 (low16 eip), segs := s.realCs sel, eflags := s.virtualIretEflags (low16 fl) }) := by
  have hif : (bit fl 9 && s.vip) = false := Bool.and_eq_false_iff.mpr hvip
  have hvm : bit (s.virtualIretEflags (low16 fl)) 17 = true :=
    (bit_virtualIretEflags_vm ..).trans (v86_iff.mp hv86).2
  have hsegs : t.realCs sel = s.realCs sel := by rw [hkept]; rfl
  unfold iretVirtual
  rw [exec_bind_of_ok (exec_get s), exec_bind_of_ok hpops]
  dsimp only
  rw [htf, exec_bind_of_ok (exec_raiseIf_false _ t), hif, exec_bind_of_ok (exec_raiseIf_false _ t), exec_modify,
    loadReal_jumpTo (.inr hvm), hsegs]

end

/-! ### The return to another task (R302, R303) -/

/-- With paging off a system read answers with the bytes of memory and changes nothing. -/
theorem sysRead_flat_ok {lin : Word32} {n v : Nat} {s t : State} (hflat : s.paging = false) (h : sysRead lin n s = .ok (v, t)) :
    v = littleEndian (s.bytesAt (addrsFrom lin n)) ∧ t = s := by
  obtain ⟨pas, u, hrange, h⟩ := exec_bind_ok h
  cases h
  obtain ⟨-, rfl, rfl⟩ := translateRange_flat_ok hflat hrange
  exact ⟨rfl, rfl⟩

theorem tss16_flat_ok {base off : Word32} {w : Word16} {s t : State} (hflat : s.paging = false) (h : tss16 base off s = .ok (w, t)) :
    w = s.phys16 (base + off) ∧ t = s := by
  obtain ⟨v, u, hread, h⟩ := exec_bind_ok h
  cases h
  obtain ⟨rfl, rfl⟩ := sysRead_flat_ok hflat hread
  rw [bytesAt_two, littleEndian_two, BitVec.ofNat_toNat, BitVec.setWidth_eq]
  exact ⟨rfl, rfl⟩

theorem isTss_busy_iff {d : SegCache} :
    d.isTss true = true ↔ bit d.attr 4 = false ∧ (field d.attr 0 4 = 0xB ∨ field d.attr 0 4 = 3) := by
  rw [SegCache.isTss, Bool.or_eq_true, isSystem_iff, isSystem_iff, ← and_or_left]
  rfl

section
variable {link : Word16} {next : Word32} {s c : State} (hlink : tss16 s.tr.cache.base 0 s = .ok (link, c))
include hlink

theorem iretTask_find : iretTask next s = (do
    let d ← findTss link true (.ts (selCode link)) 0
    taskSwitch link d .iret next (clearRf s.eflags &&& ~~~ 0x00004000) 0 : Exec Unit) c := by
  unfold iretTask
  rw [exec_bind_of_ok (exec_get s), exec_bind_of_ok hlink]
  rfl

theorem iretTask_bad (h : bit link 2 = true ∨ field link 2 14 = 0 ∨ c.outsideTable link) :
    iretTask next s = .error (.exc (.ts (selCode link))) :=
  (iretTask_find hlink).trans (exec_bind_of_error (findTss_bad _ _ _ h))

variable {d : SegCache} {u : State} (hti : bit link 2 = false) (hnull : field link 2 14 ≠ 0)
  (hread : readDescriptor link (.ts (selCode link)) c = .ok (d, u))
include hti hnull hread

theorem iretTask_wrongType (h : ¬ d.isTss true = true) : iretTask next s = .error (.exc (.ts (selCode link))) :=
  (iretTask_find hlink).trans (exec_bind_of_error (findTss_wrongType hti hnull hread h))

theorem iretTask_absent (h : d.isTss true = true) (habsent : bit d.attr 7 = false) :
    iretTask next s = .error (.exc (.np (selCode link))) :=
  (iretTask_find hlink).trans (exec_bind_of_error (findTss_absent hti hnull hread h habsent))

theorem iretTask_ok (h : d.isTss true = true) (hpresent : bit d.attr 7 = true) :
    iretTask next s = taskSwitch link d .iret next (clearRf s.eflags &&& ~~~ 0x00004000) 0 u :=
  (iretTask_find hlink).trans (exec_bind_of_ok (findTss_ok hti hnull hread h hpresent))

end

end Sys2Proof.Machine
end

section
/-! PROOFS. IRET within Protected Mode and to Virtual-86 Mode (44_task_and_coprocessor_instructions.md R302; 20_memory.md R150, R151). -/

namespace Sys2Proof.Machine

namespace StackKept
variable {s t : State} (h : StackKept s t)
include h

theorem cpl : t.cpl = s.cpl := by
  rw [h]
  rfl

theorem iretEflags (z : OpSize) (fl : Word32) : t.iretEflags z fl = s.iretEflags z fl := by
  rw [h]
  rfl

theorem outsideTable_iff (w : Word16) : t.outsideTable w ↔ s.outsideTable w := by
  rw [h]

theorem cr0 : t.cr0 = s.cr0 := by rw [h]

end StackKept

theorem stackKept_readDescriptor {s t u : State} {w : Word16} {bad : Exn} {d : SegCache} (hkept : StackKept s t)
    (h : readDescriptor w bad t = .ok (d, u)) : StackKept s u :=
  stackKept_frame.trans _ _ _ hkept (RegistersKept.stackKept (registersKept_readDescriptor (registersKept_frame.refl t) h))

/-- A load of a segment register changes that register, and what the store of the accessed bit changes. -/
theorem loadSeg_ok {r : SegReg} {sel : Word16} {d : SegCache} {u v : State} (h : loadSeg r sel d u = .ok ((), v)) :
    ∃ w, RegistersKept u w ∧ v = w.setSeg r { sel := sel, cache := d.withType (setBit d.type 0 true) } := by
  obtain ⟨_, w, hmark, h⟩ := exec_bind_ok h
  cases h
  refine ⟨w, ?_, rfl⟩
  exact keeps_onlyIf registersKept_frame _ (keeps_updateType registersKept_operandClosed.toMmuClosed _ _ _) u _ w hmark

theorem big_withType (d : SegCache) (type : BitVec 4) : (d.withType type).big = bit d.attr 10 := by
  rw [SegCache.big, SegCache.withType]
  simp only [bit, BitVec.getLsbD_append, field, BitVec.getLsbD_extractLsb']
  rfl

/-- A jump in the code segment just loaded (10_state.md R22). -/
theorem jumpTo_loadSeg {sel : Word16} {d : SegCache} {u v : State} {eip fl : Word32} (h : loadSeg .cs sel d u = .ok ((), v))
    (hpe : u.pe = true) (hvm : bit fl 17 = false) :
    v.jumpTo eip fl = { v with eip := if bit d.attr 10 then eip else zext32 (low16 eip), eflags := fl } := by
  obtain ⟨w, hkept, rfl⟩ := loadSeg_ok h
  have hpew : w.pe = true := by
    rw [hkept]
    exact hpe
  have hprot : State.prot { w.setSeg .cs { sel := sel, cache := d.withType (setBit d.type 0 true) } with eflags := fl } = true :=
    prot_iff.mpr ⟨hpew, hvm⟩
  have hsize : State.codeSize { w.setSeg .cs { sel := sel, cache := d.withType (setBit d.type 0 true) } with eflags := fl }
      = if bit d.attr 10 then .s32 else .s16 := by
    rw [State.codeSize, hprot, Bool.true_and]
    exact congrArg (fun b : Bool => if b then OpSize.s32 else OpSize.s16) (big_withType ..)
  rw [State.jumpTo, State.setEip, hsize]
  split <;> rfl

/-! ### The code segment returned to (R302; log 19) -/

/-- The code segment `d` may be returned to with the level of its selector. -/
def ReturnFits (d : SegCache) (cpl rpl : BitVec 2) : Prop :=
  bit d.attr 4 = true ∧ bit d.attr 3 = true ∧ cpl ≤ rpl ∧ if bit d.attr 2 then field d.attr 5 2 ≤ rpl else field d.attr 5 2 = rpl

theorem returnFits_iff {d : SegCache} {cpl rpl : BitVec 2} :
    ReturnFits d cpl rpl ↔ (!codeFits d rpl || decide (rpl < cpl)) = false := by
  have hlevel : (if bit d.attr 2 then decide (d.dpl ≤ rpl) else d.dpl == rpl) = true
      ↔ if bit d.attr 2 then field d.attr 5 2 ≤ rpl else field d.attr 5 2 = rpl := by
    split
    · exact decide_eq_true_iff
    · exact beq_iff_eq
  rw [ReturnFits, ← hlevel, Bool.or_eq_false_iff, Bool.not_eq_false', decide_eq_false_iff_not, BitVec.not_lt, codeFits,
    SegCache.conforming, isCode_eq]
  cases bit d.attr 4 <;> cases bit d.attr 3 <;> simp [and_comm]

section
variable {sel : Word16} {eip : Word32} {t : State}

theorem returnCode_null (h : field sel 2 14 = 0) : returnCode sel eip t = .error (.exc (.gp 0)) := by
  unfold returnCode
  rw [exec_bind_of_ok (exec_get t)]
  exact exec_bind_of_error (raiseIf_raises (selNull_iff.mpr h))

variable (hnull : field sel 2 14 ≠ 0)
include hnull

theorem returnCode_outside (h : t.outsideTable sel) : returnCode sel eip t = .error (.exc (.gp (selCode sel))) := by
  unfold returnCode
  rw [exec_bind_of_ok (exec_get t), not_selNull hnull, exec_bind_of_ok (exec_raiseIf_false _ t),
    exec_bind_of_error (readDescriptor_outside h _)]

variable {d : SegCache} {u : State} (hread : readDescriptor sel (.gp (selCode sel)) t = .ok (d, u))
include hread

theorem returnCode_read : returnCode sel eip t = (do
    raiseIf (!codeFits d (selRpl sel) || decide (selRpl sel < t.cpl)) (.gp (selCode sel))
    raiseIf (!d.present) (.np (selCode sel))
    raiseIf (!d.inLimit eip 1) (.gp 0)
    pure d : Exec SegCache) u := by
  unfold returnCode
  rw [exec_bind_of_ok (exec_get t), not_selNull hnull, exec_bind_of_ok (exec_raiseIf_false _ t), exec_bind_of_ok hread]

theorem returnCode_unfit (h : ¬ ReturnFits d t.cpl (selRpl sel)) : returnCode sel eip t = .error (.exc (.gp (selCode sel))) := by
  rw [returnCode_read hnull hread]
  exact exec_bind_of_error (raiseIf_raises (Bool.eq_true_of_not_eq_false (mt returnFits_iff.mpr h)))

variable (hfits : ReturnFits d t.cpl (selRpl sel))
include hfits

theorem returnCode_absent (h : bit d.attr 7 = false) : returnCode sel eip t = .error (.exc (.np (selCode sel))) := by
  have hp : d.present = false := h
  rw [returnCode_read hnull hread, returnFits_iff.mp hfits, exec_bind_of_ok (exec_raiseIf_false _ u), hp]
  exact exec_bind_of_error (exec_raiseIf_true _ u)

/-- The limit of a code segment is an upper one (20_memory.md R149). -/
theorem returnCode_present (h : bit d.attr 7 = true) : returnCode sel eip t
    = if eip.toNat ≤ d.byteLimit then .ok (d, u) else .error (.exc (.gp 0)) := by
  have hp : d.present = true := h
  have hup : ¬ d.expandDown = true := fun hdown => by
    have hdata := ((expandDown_iff hfits.1).mp hdown).1
    exact absurd (hdata.symm.trans hfits.2.1) (by decide)
  have hlimit : d.inLimit eip 1 = decide (eip.toNat ≤ d.byteLimit) := by
    rw [Bool.eq_iff_iff, inLimit_iff, if_neg hup, decide_eq_true_iff, Nat.add_le_add_iff_right]
  rw [returnCode_read hnull hread, returnFits_iff.mp hfits, exec_bind_of_ok (exec_raiseIf_false _ u), hp, Bool.not_true,
    exec_bind_of_ok (exec_raiseIf_false _ u), hlimit]
  split
  · next hin =>
    rw [decide_eq_true hin, Bool.not_true, exec_bind_of_ok (exec_raiseIf_false _ u), exec_pure]
  · next hout =>
    rw [decide_eq_false hout]
    exact exec_bind_of_error (exec_raiseIf_true _ u)

end

/-! ### The stack of an outer level (R302; log 19) -/

/-- The data segment `d` may be the stack of level `n` through selector `sel`. -/
def StackFits (d : SegCache) (sel : Word16) (n : BitVec 2) : Prop :=
  bit d.attr 4 = true ∧ bit d.attr 3 = false ∧ bit d.attr 1 = true ∧ field d.attr 5 2 = n ∧ field sel 0 2 = n

theorem stackFits_iff {d : SegCache} {sel : Word16} {n : BitVec 2} : StackFits d sel n ↔ stackFits d sel n = true := by
  unfold StackFits stackFits SegCache.writable SegCache.isData SegCache.codeOrData SegCache.dpl selRpl
  simp only [Bool.and_eq_true, Bool.not_eq_true', beq_iff_eq, and_assoc]

/-- The stack pointer and the data segment registers after a return to outer level `n`. -/
def State.outward (v : State) (esp : Word32) (n : BitVec 2) : State :=
  { v with gpr := { v.gpr with esp := esp }, segs := nullInner n v.segs }

theorem nullIfInner_eq (n : BitVec 2) (g : SegState) : nullIfInner n g
    = if bit g.cache.attr 4 = true ∧ (bit g.cache.attr 3 = false ∨ bit g.cache.attr 2 = false) ∧ field g.cache.attr 5 2 < n
        then .null 0 else g := by
  unfold nullIfInner SegCache.conforming SegCache.isData SegCache.isCode SegCache.codeOrData SegCache.dpl
  cases bit g.cache.attr 4 <;> cases bit g.cache.attr 3 <;> cases bit g.cache.attr 2 <;> simp

section
variable {z : OpSize} {n : BitVec 2} {u t₁ t₂ : State} {esp ss : Word32} (hesp : pop z u = .ok (esp, t₁)) (hss : pop z t₁ = .ok (ss, t₂))
include hesp hss

theorem iretOuterStack_null (h : field (low16 ss) 2 14 = 0) : iretOuterStack z n u = .error (.exc (.gp 0)) := by
  unfold iretOuterStack
  rw [exec_bind_of_ok hesp, exec_bind_of_ok hss]
  exact exec_bind_of_error (raiseIf_raises (selNull_iff.mpr h))

variable (hnull : field (low16 ss) 2 14 ≠ 0)
include hnull

theorem iretOuterStack_outside (h : t₂.outsideTable (low16 ss)) :
    iretOuterStack z n u = .error (.exc (.gp (selCode (low16 ss)))) := by
  unfold iretOuterStack
  rw [exec_bind_of_ok hesp, exec_bind_of_ok hss]
  dsimp only
  rw [not_selNull hnull, exec_bind_of_ok (exec_raiseIf_false _ t₂), exec_bind_of_error (readDescriptor_outside h _)]

variable {d : SegCache} {u₂ : State} (hread : readDescriptor (low16 ss) (.gp (selCode (low16 ss))) t₂ = .ok (d, u₂))
include hread

theorem iretOuterStack_read : iretOuterStack z n u = (do
    raiseIf (!stackFits d (low16 ss) n) (.gp (selCode (low16 ss)))
    raiseIf (!d.present) (.ss (selCode (low16 ss)))
    loadSeg .ss (low16 ss) d
    modify fun t => { t.setReg .esp esp with segs := nullInner n t.segs } : Exec Unit) u₂ := by
  unfold iretOuterStack
  rw [exec_bind_of_ok hesp, exec_bind_of_ok hss]
  dsimp only
  rw [not_selNull hnull, exec_bind_of_ok (exec_raiseIf_false _ t₂), exec_bind_of_ok hread]

theorem iretOuterStack_unfit (h : ¬ StackFits d (low16 ss) n) :
    iretOuterStack z n u = .error (.exc (.gp (selCode (low16 ss)))) := by
  rw [iretOuterStack_read hesp hss hnull hread, Bool.eq_false_of_not_eq_true (mt stackFits_iff.mpr h)]
  exact exec_bind_of_error (exec_raiseIf_true _ u₂)

variable (hfits : StackFits d (low16 ss) n)
include hfits

theorem iretOuterStack_absent (h : bit d.attr 7 = false) : iretOuterStack z n u = .error (.exc (.ss (selCode (low16 ss)))) := by
  have hp : d.present = false := h
  rw [iretOuterStack_read hesp hss hnull hread, stackFits_iff.mp hfits, Bool.not_true, exec_bind_of_ok (exec_raiseIf_false _ u₂), hp]
  exact exec_bind_of_error (exec_raiseIf_true _ u₂)

theorem iretOuterStack_ok (h : bit d.attr 7 = true) {v : State} (hload : loadSeg .ss (low16 ss) d u₂ = .ok ((), v)) :
    iretOuterStack z n u = .ok ((), v.outward esp n) := by
  have hp : d.present = true := h
  rw [iretOuterStack_read hesp hss hnull hread, stackFits_iff.mp hfits, Bool.not_true, exec_bind_of_ok (exec_raiseIf_false _ u₂), hp,
    Bool.not_true, exec_bind_of_ok (exec_raiseIf_false _ u₂), exec_bind_of_ok hload, exec_modify]
  rfl

end

/-! ### The return (R302) -/

section
variable {z : OpSize} {eip fl : Word32} {sel : Word16} {t : State}

theorem iretProtected_raises {e : Stop} (h : returnCode sel eip t = .error e) : iretProtected z eip sel fl t = .error e := by
  unfold iretProtected
  rw [exec_bind_of_ok (exec_get t), exec_bind_of_error h]

variable {d : SegCache} {u : State} (hcode : returnCode sel eip t = .ok (d, u))
include hcode

/-- A return to the same level, or to an outer one whose stack has been loaded, ends with the load of CS and the jump. -/
theorem iretProtected_ok {v w : State} (hpe : v.pe = true) (hvm : bit (t.iretEflags z fl) 17 = false)
    (hstack : onlyIf (decide (t.cpl < selRpl sel)) (iretOuterStack z (selRpl sel)) u = .ok ((), v))
    (hload : loadSeg .cs sel d v = .ok ((), w)) : iretProtected z eip sel fl t = .ok ((), { w with
      eip := if bit d.attr 10 then eip else zext32 (low16 eip), eflags := t.iretEflags z fl, cplField := field sel 0 2 }) := by
  unfold iretProtected
  rw [exec_bind_of_ok (exec_get t), exec_bind_of_ok hcode, exec_bind_of_ok hstack, exec_bind_of_ok hload, exec_modify,
    jumpTo_loadSeg hload hpe hvm]
  rfl

theorem iretProtected_stack_raises {e : Stop} (houter : t.cpl < selRpl sel) (hstack : iretOuterStack z (selRpl sel) u = .error e) :
    iretProtected z eip sel fl t = .error e := by
  have honly : onlyIf (decide (t.cpl < selRpl sel)) (iretOuterStack z (selRpl sel)) u = .error e := by
    rw [decide_eq_true houter]
    exact hstack
  unfold iretProtected
  rw [exec_bind_of_ok (exec_get t), exec_bind_of_ok hcode, exec_bind_of_error honly]

end

/-! ### The return to Virtual-86 Mode (R302; log 43) -/

/-- A segment register loaded with a paragraph number (10_state.md R45). -/
def SegState.paragraph (g : SegState) (sel : Word16) : SegState := { sel := sel, cache := g.cache.atParagraph sel }

theorem loadV86All_eq (t : State) (es cs ss ds fs gs : Word16) : t.loadV86All es cs ss ds fs gs = { t with
    segs := { es := t.segs.es.paragraph es, cs := t.segs.cs.paragraph cs, ss := t.segs.ss.paragraph ss, ds := t.segs.ds.paragraph ds
              fs := t.segs.fs.paragraph fs, gs := t.segs.gs.paragraph gs }
    cplField := 3 } := by
  simp only [State.loadV86All, State.loadReal, SegCache.real_eq_atParagraph, State.setSeg, State.seg, Segs.set, Segs.get,
    SegState.paragraph]

theorem iretToV86_ok {eip fl esp ss es ds fs gs : Word32} {cs : Word16} {t t₁ t₂ t₃ t₄ t₅ t₆ : State}
    (hesp : pop .s32 t = .ok (esp, t₁)) (hss : pop .s32 t₁ = .ok (ss, t₂)) (hes : pop .s32 t₂ = .ok (es, t₃))
    (hds : pop .s32 t₃ = .ok (ds, t₄)) (hfs : pop .s32 t₄ = .ok (fs, t₅)) (hgs : pop .s32 t₅ = .ok (gs, t₆))
    (hvm : bit (t.iretEflags .s32 fl) 17 = true) : iretToV86 eip cs fl t = .ok ((), { t₆ with
      eip := zext32 (low16 eip), eflags := t.iretEflags .s32 fl, gpr := { t₆.gpr with esp := esp }, cplField := 3
      segs := { es := t₆.segs.es.paragraph (low16 es), cs := t₆.segs.cs.paragraph cs, ss := t₆.segs.ss.paragraph (low16 ss)
                ds := t₆.segs.ds.paragraph (low16 ds), fs := t₆.segs.fs.paragraph (low16 fs)
                gs := t₆.segs.gs.paragraph (low16 gs) } }) := by
  have hjump (v : State) (e : Word32) (h : bit e 17 = true) : v.jumpTo eip e = { v with eip := zext32 (low16 eip), eflags := e } := by
    have hprot : State.prot { v with eflags := e } = false := (Bool.not_eq_true' _).mp (not_prot_iff.mpr (.inr h))
    have hsize : State.codeSize { v with eflags := e } = .s16 := by
      rw [State.codeSize, hprot]
      rfl
    rw [State.jumpTo, State.setEip, hsize, codeOffset_s16]
  unfold iretToV86
  rw [exec_bind_of_ok (exec_get t), exec_bind_of_ok hesp, exec_bind_of_ok hss, exec_bind_of_ok hes, exec_bind_of_ok hds,
    exec_bind_of_ok hfs, exec_bind_of_ok hgs, exec_modify, hjump _ _ hvm, loadV86All_eq]
  rfl

/-! ### IRET in Protected Mode after its three pops -/

section
variable {z : OpSize} {next eip cs fl : Word32} {s t : State} (hprot : s.prot = true) (hnt : s.nt = false)
  (hpops : popFrame z s = .ok ((eip, low16 cs, fl), t))
include hprot hnt hpops

theorem iretBody_toV86 (h : bit fl 17 = true ∧ s.cpl = 0 ∧ z = .s32) : iretBody z next s = iretToV86 eip (low16 cs) fl t := by
  obtain ⟨hvm, hcpl, hz⟩ := h
  rw [iretBody_prot hprot hnt, exec_bind_of_ok hpops]
  dsimp only
  rw [hvm, hcpl, hz]
  rfl

theorem iretBody_within (h : ¬ (bit fl 17 = true ∧ s.cpl = 0 ∧ z = .s32)) :
    iretBody z next s = iretProtected z eip (low16 cs) fl t := by
  have hcond : (bit fl 17 && s.cpl == 0 && z == .s32) = false := Bool.eq_false_of_not_eq_true fun hb => by
    simp only [Bool.and_eq_true, beq_iff_eq, and_assoc] at hb
    exact h hb
  rw [iretBody_prot hprot hnt, exec_bind_of_ok hpops]
  dsimp only
  rw [hcond]
  rfl

end

section
variable {p : List Prefix} {eip cs fl : Word32} {s t : State} (hp : Plain p) (hprot : s.prot = true) (hnt : s.nt = false)
  (hpops : popFrame (s.operandSize p) s = .ok ((eip, low16 cs, fl), t)) (ht : StackKept s t)
  (hwithin : ¬ (bit fl 17 = true ∧ s.cpl = 0 ∧ s.operandSize p = .s32))
include hp hprot hnt hpops

include ht in
/-- The return to Virtual-86 Mode pops six more values. -/
theorem exec_iret_toV86 (h : bit fl 17 = true ∧ s.cpl = 0 ∧ s.operandSize p = .s32) {esp ss es ds fs gs : Word32}
    {t₁ t₂ t₃ t₄ t₅ t₆ : State} (hesp : pop .s32 t = .ok (esp, t₁)) (hss : pop .s32 t₁ = .ok (ss, t₂))
    (hes : pop .s32 t₂ = .ok (es, t₃)) (hds : pop .s32 t₃ = .ok (ds, t₄)) (hfs : pop .s32 t₄ = .ok (fs, t₅))
    (hgs : pop .s32 t₅ = .ok (gs, t₆)) : exec (.iret p) s = .next (s.returned { t₆ with
      eip := zext32 (low16 eip), eflags := s.iretEflags (s.operandSize p) fl, gpr := { s.gpr with esp := esp }, cplField := 3
      segs := { es := s.segs.es.paragraph (low16 es), cs := s.segs.cs.paragraph (low16 cs), ss := s.segs.ss.paragraph (low16 ss)
                ds := s.segs.ds.paragraph (low16 ds), fs := s.segs.fs.paragraph (low16 fs)
                gs := s.segs.gs.paragraph (low16 gs) } }) := by
  have hvm : bit (t.iretEflags .s32 fl) 17 = true := by
    rw [ht.iretEflags, bit_iretEflags_vm_s32, if_pos ⟨(prot_iff.mp hprot).1, h.2.1⟩, h.1]
  have ht₂ : StackKept t t₂ := stackKept_frame.trans _ _ _ (stackKept_pop _ _ _ _ hesp) (stackKept_pop _ _ _ _ hss)
  have ht₄ : StackKept t₂ t₄ := stackKept_frame.trans _ _ _ (stackKept_pop _ _ _ _ hes) (stackKept_pop _ _ _ _ hds)
  have ht₆ : StackKept t₄ t₆ := stackKept_frame.trans _ _ _ (stackKept_pop _ _ _ _ hfs) (stackKept_pop _ _ _ _ hgs)
  have hkept : StackKept s t₆ := stackKept_frame.trans _ _ _ ht (stackKept_frame.trans _ _ _ ht₂ (stackKept_frame.trans _ _ _ ht₄ ht₆))
  have hsegs : t₆.segs = s.segs := by rw [hkept]
  have hgpr : { t₆.gpr with esp := esp } = { s.gpr with esp := esp } := by rw [hkept]
  have hbody := (iretBody_toV86 (next := s.eipPlus (Instr.iret p).length) hprot hnt hpops h).trans
    (iretToV86_ok hesp hss hes hds hfs hgs hvm)
  rw [hsegs, hgpr, ht.iretEflags] at hbody
  rw [exec_iret_ok hp hbody, h.2.2]

include hwithin in
theorem exec_iret_within_raises {x : Exn} (h : iretProtected (s.operandSize p) eip (low16 cs) fl t = .error (.exc x)) :
    exec (.iret p) s = takeException x s :=
  exec_iret_raises hp ((iretBody_within hprot hnt hpops hwithin).trans h)

include ht hwithin in
theorem exec_iret_within_ok {d : SegCache} {u v w : State} (hcode : returnCode (low16 cs) eip t = .ok (d, u)) (hv : v.cr0 = s.cr0)
    (hstack : onlyIf (decide (t.cpl < selRpl (low16 cs))) (iretOuterStack (s.operandSize p) (selRpl (low16 cs))) u = .ok ((), v))
    (hload : loadSeg .cs (low16 cs) d v = .ok ((), w)) : exec (.iret p) s = .next (s.returned { w with
      eip := if bit d.attr 10 then eip else zext32 (low16 eip), eflags := s.iretEflags (s.operandSize p) fl
      cplField := field (low16 cs) 0 2 }) := by
  obtain ⟨hpe, hvm⟩ := prot_iff.mp hprot
  have hpev : v.pe = true := by rw [State.pe, hv]; exact hpe
  have hload17 : ¬ (bit fl 17 = true ∧ s.pe = true ∧ s.cpl = 0 ∧ s.operandSize p = .s32) := fun h => hwithin ⟨h.1, h.2.2⟩
  have hfl : bit (t.iretEflags (s.operandSize p) fl) 17 = false := by
    rw [ht.iretEflags, bit_iretEflags_vm_kept _ _ _ hload17 (.inl hvm), hvm]
  rw [exec_iret_ok hp ((iretBody_within hprot hnt hpops hwithin).trans (iretProtected_ok hcode hpev hfl hstack hload)), ht.iretEflags]

end

/-- Settles O56: the flags by the mask of R302, then each way of returning by the part of IRET that makes it. -/
theorem interruptReturn : Obligations.InterruptReturn := by
  intro p s a b t eip cs fl hp i z e sel rpl code nulled done
  refine ⟨fun k hk => bit_iretEflags_always s z fl hk, bit_iretEflags_if s z fl, iopl_iretEflags s z fl, fun hz => ?flags32,
    fun hz => ?flags16, ?words, fun hv86 hiopl hvirtual => ?v86,
    fun hprot hnt link c hlink => ?task, fun heip hcs hfl => ?pops⟩
  case flags32 =>
    have he : e = s.iretEflags .s32 fl := congrArg (s.iretEflags · fl) hz
    rw [he]
    exact ⟨bit_iretEflags_high s fl (by decide), bit_iretEflags_high s fl (by decide), bit_iretEflags_vm_s32 s fl,
      bit_iretEflags_vif s fl (by decide), bit_iretEflags_vif s fl (by decide), bit_iretEflags_id s fl⟩
  case flags16 =>
    have he : e = s.iretEflags .s16 fl := congrArg (s.iretEflags · fl) hz
    rw [he]
    refine ⟨(bit_iretEflags_s16 s fl (by decide)).trans (bit_clearRf_rf _), fun k hk => ?_⟩
    have hk' := (by decide : ∀ k ∈ [17, 18, 19, 20], k ∈ [16, 17, 18, 19, 20] ∧ k ≠ 16) k hk
    exact (bit_iretEflags_s16 s fl hk'.1).trans (bit_clearRf _ hk'.2)
  case words =>
    intro hreal hz sp w hsp hsp₂ hsp₄ hdev
    have hsp0 : sp + 0 = sp := BitVec.add_zero _
    have hbody := iretReal_words hreal (sp := sp) rfl hsp hsp₂ hsp₄ hdev
    have hexec := exec_iret_ok hp ((iretBody_real (.inl hreal)).trans ((congrFun (congrArg iretReal hz) s).trans hbody))
    refine ⟨_, hexec, ?_, rfl⟩
    simp only [State.returned, w, hsp0]
  case v86 =>
    refine exec_iret_raises hp ((iretBody_v86 hv86 hiopl).trans ?_)
    have hcond : (s.vme && z == .s16) = false := by
      obtain hvme | hz := hvirtual
      · rw [hvme, Bool.false_and]
      · rw [hz]
        exact Bool.and_false _
    rw [hcond]
    rfl
  case task =>
    have hc : RegistersKept s c := keeps_tss16 registersKept_operandClosed.toMmuClosed _ _ s _ c hlink
    have raises {x : Exn} (h : iretTask (s.eipPlus i.length) s = .error (.exc x)) : exec i s = takeException x s :=
      exec_iret_raises hp ((iretBody_task hprot hnt).trans h)
    refine ⟨fun hflat => ?_, fun hbad => raises (iretTask_bad hlink ?_), fun d u hti hnull hread => ⟨fun hwrong => raises ?_,
      fun hbusy habsent => raises ?_, fun hbusy hpresent v hv => exec_iret_ok hp ((iretBody_task hprot hnt).trans ?_)⟩⟩
    · have hoff : s.tr.cache.base + 0 = s.tr.cache.base := BitVec.add_zero _
      exact hoff ▸ tss16_flat_ok hflat hlink
    · rwa [hc.outsideTable_iff]
    · exact iretTask_wrongType hlink hti hnull hread (mt isTss_busy_iff.mp hwrong)
    · exact iretTask_absent hlink hti hnull hread (isTss_busy_iff.mpr hbusy) habsent
    · exact (iretTask_ok hlink hti hnull hread (isTss_busy_iff.mpr hbusy) hpresent).trans hv
  case pops =>
    have hpops : popFrame z s = .ok ((eip, sel, fl), t) := popFrame_ok heip hcs hfl
    have ha : StackKept s a := stackKept_pop z s _ a heip
    have hb : StackKept s b := stackKept_frame.trans _ _ _ ha (stackKept_pop z a _ b hcs)
    have ht : StackKept s t := stackKept_frame.trans _ _ _ hb (stackKept_pop z b _ t hfl)
    refine ⟨⟨ht, fun hflat => ?mem⟩, fun hmode => ?real, fun hv86 hiopl hvme hz => ?virtual, fun hprot hnt hto => ?toV86,
      fun hprot hnt hwithin => ?within⟩
    case mem =>
      rw [pop_flat_mem (hb.paging.trans hflat) hfl, pop_flat_mem (ha.paging.trans hflat) hcs, pop_flat_mem hflat heip]
    case real => exact exec_iret_ok hp ((iretBody_real hmode).trans (iretReal_ok hmode hpops ht))
    case virtual =>
      have hbody : iretBody z (s.eipPlus i.length) s = iretVirtual s := by
        rw [iretBody_v86 hv86 hiopl, hvme, hz]
        rfl
      rw [hz] at hpops
      refine ⟨fun h => exec_iret_raises hp (hbody.trans (iretVirtual_raises hpops h)), fun htf hvip => ⟨_,
        exec_iret_ok hp (hbody.trans (iretVirtual_ok hpops ht hv86 htf hvip)), fun k hk => bit_virtualIretEflags_image s fl hk,
        bit_virtualIretEflags_vif s fl, ?_, fun k hk => ?_⟩⟩
      · exact (bit_virtualIretEflags_kept s _ (by decide)).trans (bit_clearRf_rf _)
      · have hk' := (by decide : ∀ k ∈ [9, 12, 13, 17, 18, 20], k ∈ [9, 12, 13, 16, 17, 18, 20] ∧ k ≠ 16) k hk
        exact (bit_virtualIretEflags_kept s _ hk'.1).trans (bit_clearRf _ hk'.2)
    case toV86 =>
      intro esp ss es ds fs gs t₁ t₂ t₃ t₄ t₅ t₆ hesp hss hes hds hfs hgs v86
      exact exec_iret_toV86 hp hprot hnt hpops ht hto hesp hss hes hds hfs hgs
    case within =>
      have raises {x : Exn} (h : iretProtected z eip sel fl t = .error (.exc x)) : exec i s = takeException x s :=
        exec_iret_within_raises hp hprot hnt hpops hwithin h
      refine ⟨fun hnull => raises (iretProtected_raises (returnCode_null hnull)), fun hnull hout =>
        raises (iretProtected_raises (returnCode_outside hnull ((ht.outsideTable_iff sel).mpr hout))), fun d u hnull hread => ?_⟩
      intro fits off
      have hu : StackKept s u := stackKept_readDescriptor ht hread
      have hfits : fits ↔ ReturnFits d t.cpl (selRpl sel) := by rw [ht.cpl]; exact Iff.rfl
      refine ⟨fun hunfit => raises (iretProtected_raises (returnCode_unfit hnull hread (mt hfits.mpr hunfit))),
        fun hok habsent => raises (iretProtected_raises (returnCode_absent hnull hread (hfits.mp hok) habsent)),
        fun hok hpresent hbeyond => raises (iretProtected_raises ?beyond), fun hok hpresent hin => ?inside⟩
      case beyond => rw [returnCode_present hnull hread (hfits.mp hok) hpresent, if_neg (Nat.not_le.mpr hbeyond)]
      have hcode : returnCode sel eip t = .ok (d, u) := by
        rw [returnCode_present hnull hread (hfits.mp hok) hpresent, if_pos hin]
      refine ⟨fun hsame v hv => ?same, ?outer⟩
      case same =>
        have hstack : onlyIf (decide (t.cpl < selRpl sel)) (iretOuterStack z (selRpl sel)) u = .ok ((), u) := by
          have hlevel : ¬ t.cpl < selRpl sel := by rw [ht.cpl]; exact hsame ▸ BitVec.lt_irrefl rpl
          rw [decide_eq_false hlevel]
          rfl
        exact exec_iret_within_ok hp hprot hnt hpops ht hwithin hcode hu.cr0 hstack hv
      case outer =>
        intro houter esp ss t₁ t₂ hesp hss sel₂
        have hlevel : t.cpl < selRpl sel := by rw [ht.cpl]; exact houter
        have ht₂ : StackKept s t₂ := stackKept_frame.trans _ _ _ hu
          (stackKept_frame.trans _ _ _ (stackKept_pop _ _ _ _ hesp) (stackKept_pop _ _ _ _ hss))
        have stackRaises {x : Exn} (h : iretOuterStack z (selRpl sel) u = .error (.exc x)) : exec i s = takeException x s :=
          raises (iretProtected_stack_raises hcode hlevel h)
        refine ⟨fun hnull₂ => stackRaises (iretOuterStack_null hesp hss hnull₂), fun hnull₂ hout =>
          stackRaises (iretOuterStack_outside hesp hss hnull₂ ((ht₂.outsideTable_iff sel₂).mpr hout)), fun d₂ u₂ hnull₂ hread₂ => ?_⟩
        intro good
        refine ⟨fun hbad => stackRaises (iretOuterStack_unfit hesp hss hnull₂ hread₂ hbad),
          fun hgood habsent => stackRaises (iretOuterStack_absent hesp hss hnull₂ hread₂ hgood habsent),
          fun hgood hpresent₂ v w hv hw => ?_⟩
        have hstack := iretOuterStack_ok hesp hss hnull₂ hread₂ hgood hpresent₂ hv
        have hcr0 : (v.outward esp rpl).cr0 = s.cr0 := by
          obtain ⟨x, hx, rfl⟩ := loadSeg_ok hv
          exact (RegistersKept.stackKept hx).cr0.trans (stackKept_readDescriptor ht₂ hread₂).cr0
        have honly := (congrFun (congrArg (onlyIf · (iretOuterStack z (selRpl sel))) (decide_eq_true hlevel)) u).trans hstack
        have hnulled : nulled = nullIfInner rpl := funext fun g => (nullIfInner_eq rpl g).symm
        rw [hnulled] at hw
        exact exec_iret_within_ok hp hprot hnt hpops ht hwithin hcode hcr0 honly hw

end Sys2Proof.Machine
end

section
/-! PROOFS. What the loads of a task switch change (20_memory.md R151, R159; 44_task_and_coprocessor_instructions.md R304). -/

namespace Sys2Proof.Machine

/-! ### Memory accesses -/

/-- `t` is `s` but for entries of the TLB, memory and the count of free values. -/
def MmuKept (s t : State) : Prop := t = { s with tlb := t.tlb, mem := t.mem, draws := t.draws } ∧ t.tlb.length = s.tlb.length

theorem mmuKept_closed : MmuClosed MmuKept where
  frame := {
    refl := fun _ => ⟨rfl, rfl⟩
    trans := fun s t u h1 h2 => ⟨by rw [h2.1, h1.1], h2.2.trans h1.2⟩ }
  store s pas vs := ⟨by rw [storeBytes_eq], by rw [storeBytes_eq]⟩
  tlb _ _ h := ⟨rfl, h⟩
  draws _ _ := ⟨rfl, rfl⟩

/-- The loads of segment registers that change `s` to `t`, and set only accessed bits at addresses of `P`. -/
structure SegsLoad (P : Word32 → Prop) (s t : State) : Prop where
  rest : t = { s with segs := t.segs, cplField := t.cplField, tlb := t.tlb, mem := t.mem, draws := t.draws }
  tlbLength : t.tlb.length = s.tlb.length
  tlb : s.paging = false → t.tlb = s.tlb
  wf : s.paging = false → Memory.wf s.mem = true → Memory.wf t.mem = true
  bytes : s.paging = false → Memory.wf s.mem = true → ∀ a, t.physByte a = s.physByte a ∨ (t.physByte a = s.physByte a ||| 1 ∧ P a)

section
variable {P : Word32 → Prop} {s t u v : State}

theorem SegsLoad.paging (h : SegsLoad P s t) : t.paging = s.paging := by
  rw [h.rest]
  rfl

theorem SegsLoad.descriptorAddr (h : SegsLoad P s t) (sel : Word16) : t.descriptorAddr sel = s.descriptorAddr sel := by
  rw [h.rest]
  rfl

/-- A bit that is set twice is set once. -/
theorem SegsLoad.trans (h1 : SegsLoad P s t) (h2 : SegsLoad P t u) : SegsLoad P s u where
  rest := by rw [h2.rest, h1.rest]
  tlbLength := h2.tlbLength.trans h1.tlbLength
  tlb hflat := (h2.tlb (h1.paging.trans hflat)).trans (h1.tlb hflat)
  wf hflat hwf := h2.wf (h1.paging.trans hflat) (h1.wf hflat hwf)
  bytes hflat hwf a := by
    have hsame := h1.bytes hflat hwf a
    obtain h2 | ⟨h2, hP⟩ := h2.bytes (h1.paging.trans hflat) (h1.wf hflat hwf) a
    · exact h2 ▸ hsame
    · obtain h1 | ⟨h1, -⟩ := hsame
      · exact .inr ⟨h1 ▸ h2, hP⟩
      · exact .inr ⟨by rw [h2, h1, BitVec.or_assoc, BitVec.or_self], hP⟩

/-- An update of the segment registers and the level alone. -/
theorem segsLoad_of_eq (h : t = { s with segs := t.segs, cplField := t.cplField }) : SegsLoad P s t where
  rest := by rw [h]
  tlbLength := by rw [h]
  tlb _ := by rw [h]
  wf _ hwf := by rw [h]; exact hwf
  bytes _ _ a := .inl (by rw [h]; rfl)

theorem segsLoad_of_mmuKept (h : MmuKept s t) (hflat : s.paging = false → t = s) : SegsLoad P s t where
  rest := by rw [h.1]
  tlbLength := h.2
  tlb hp := by rw [hflat hp]
  wf hp hwf := by rw [hflat hp]; exact hwf
  bytes hp _ a := .inl (by rw [hflat hp])

/-! ### One load -/

/-- `v` is `u` after register `r` is loaded with selector `sel`. -/
structure LoadsReg (P : Word32 → Prop) (r : SegReg) (sel : Word16) (u v : State) : Prop where
  load : SegsLoad P u v
  segs : ∃ cache, v.segs = u.segs.set r { sel := sel, cache := cache }

theorem readDescriptor_segsLoad {sel : Word16} {bad : Exn} {d : SegCache} (h : readDescriptor sel bad u = .ok (d, v)) :
    SegsLoad P u v ∧ v.segs = u.segs ∧ v.cplField = u.cplField := by
  have hkept : MmuKept u v := keeps_readDescriptor mmuKept_closed _ _ _ _ _ h
  refine ⟨segsLoad_of_mmuKept hkept fun hflat => readDescriptor_flat_ok hflat h, ?_, ?_⟩
  all_goals rw [hkept.1]

theorem updateType_flat_ok {sel : Word16} {n : Nat} {b : Bool} (hflat : u.paging = false) (h : updateType sel n b u = .ok ((), v)) :
    v = u.storeByte (u.descriptorAddr sel + 5) (setBit (u.physByte (u.descriptorAddr sel + 5)) n b) := by
  cases hdev : u.deviceAt [u.descriptorAddr sel + 5] with
  | false =>
    rw [updateType_flat hflat hdev] at h
    cases h
    rfl
  | true =>
    have hread : sysRead (u.descriptorAddr sel + 5) 1 u = .error (.refused .deviceAccess) :=
      exec_bind_of_error (translateRange_device hflat _ hdev)
    unfold updateType at h
    rw [exec_bind_of_ok (exec_get u), exec_bind_of_error hread] at h
    cases h

/-- The byte that is stored is the byte read with bit 0 set, and a place that is no ordinary memory keeps it. -/
theorem setAccessed_segsLoad {sel : Word16} (hP : P (u.descriptorAddr sel + 5)) (h : updateType sel 0 true u = .ok ((), v)) :
    SegsLoad P u v ∧ v.segs = u.segs ∧ v.cplField = u.cplField := by
  have hkept : MmuKept u v := keeps_updateType mmuKept_closed _ _ _ _ _ _ h
  refine ⟨{ rest := by rw [hkept.1], tlbLength := hkept.2, tlb := fun hflat => ?_, wf := fun hflat hwf => ?_,
            bytes := fun hflat hwf a => ?_ }, by rw [hkept.1], by rw [hkept.1]⟩
  · rw [updateType_flat_ok hflat h, storeByte_eq]
  · rw [updateType_flat_ok hflat h]
    exact storeByte_wf _ _ hwf
  · rw [updateType_flat_ok hflat h]
    by_cases ha : a = u.descriptorAddr sel + 5
    · subst ha
      by_cases hkind : u.part.kindAt (u.descriptorAddr sel + 5) = .ram
      · exact .inr ⟨physByte_storeByte _ hkind hwf, hP⟩
      · exact .inl (by rw [storeByte_fixed _ hkind])
    · exact .inl (physByte_storeByte_other _ ha hwf)

theorem loadSeg_loadsReg {r : SegReg} {sel : Word16} {d : SegCache} (hP : P (u.descriptorAddr sel + 5))
    (h : loadSeg r sel d u = .ok ((), v)) : LoadsReg P r sel u v ∧ v.cplField = u.cplField := by
  obtain ⟨_, w, hmark, h⟩ := exec_bind_ok h
  cases h
  have hw : SegsLoad P u w ∧ w.segs = u.segs ∧ w.cplField = u.cplField := by
    cases hbit : bit d.attr 0 with
    | true =>
      rw [hbit] at hmark
      cases hmark
      exact ⟨segsLoad_of_eq rfl, rfl, rfl⟩
    | false =>
      rw [hbit] at hmark
      exact setAccessed_segsLoad hP hmark
  obtain ⟨hload, hsegs, hcpl⟩ := hw
  exact ⟨⟨hload.trans (segsLoad_of_eq rfl), _, congrArg (Segs.set · r _) hsegs⟩, hcpl⟩

end

/-! ### The registers of the incoming task -/

/-- A check that is passed changes nothing. -/
theorem raiseIf_bind_ok {β : Type} {c : Bool} {e : Exn} {f : Unit → Exec β} {s : State} {r : β × State}
    (h : (raiseIf c e >>= f) s = .ok r) : c = false ∧ f () s = .ok r := by
  cases c with
  | false => exact ⟨rfl, h⟩
  | true => cases h

/-- The accessed bit of a descriptor named by a selector that is not null may be set. -/
def MayMark (P : Word32 → Prop) (u : State) (sel : Word16) : Prop := field sel 2 14 ≠ 0 → P (u.descriptorAddr sel + 5)

theorem not_null_of_selNull {sel : Word16} (h : selNull sel = false) : field sel 2 14 ≠ 0 :=
  fun hzero => absurd ((selNull_iff.mpr hzero).symm.trans h) (by decide)

section
variable {P : Word32 → Prop} {u v : State} {sel : Word16}

/-- A descriptor that has been read is loaded. -/
theorem loadSeg_after_read {r : SegReg} {bad : Exn} {d : SegCache} {w x : State} (hP : P (u.descriptorAddr sel + 5))
    (hread : readDescriptor sel bad u = .ok (d, w)) (hx : x = { w with cplField := x.cplField })
    (h : loadSeg r sel d x = .ok ((), v)) : LoadsReg P r sel u v ∧ v.cplField = x.cplField := by
  obtain ⟨hw, hsegs, -⟩ := readDescriptor_segsLoad (P := P) hread
  have hux : SegsLoad P u x := hw.trans (segsLoad_of_eq (by rw [hx]))
  have hsegsx : x.segs = u.segs := by rw [hx, hsegs]
  obtain ⟨⟨hload, cache, hset⟩, hcpl⟩ := loadSeg_loadsReg (P := P) (by rw [hux.descriptorAddr]; exact hP) h
  exact ⟨⟨hux.trans hload, cache, hsegsx ▸ hset⟩, hcpl⟩

theorem loadTaskCode_ok (hP : MayMark P u sel) (h : loadTaskCode sel u = .ok ((), v)) :
    LoadsReg P .cs sel u v ∧ v.cplField = selRpl sel := by
  unfold loadTaskCode at h
  obtain ⟨hnull, h⟩ := raiseIf_bind_ok h
  obtain ⟨d, w, hread, h⟩ := exec_bind_ok h
  obtain ⟨-, h⟩ := raiseIf_bind_ok h
  obtain ⟨-, h⟩ := raiseIf_bind_ok h
  obtain ⟨_, _, hlevel, h⟩ := exec_bind_ok h
  cases hlevel
  exact loadSeg_after_read (hP (not_null_of_selNull hnull)) hread rfl h

theorem loadTaskStack_ok (hP : MayMark P u sel) (h : loadTaskStack sel u = .ok ((), v)) :
    LoadsReg P .ss sel u v ∧ v.cplField = u.cplField := by
  unfold loadTaskStack at h
  obtain ⟨hnull, h⟩ := raiseIf_bind_ok h
  obtain ⟨d, w, hread, h⟩ := exec_bind_ok h
  obtain ⟨_, _, hget, h⟩ := exec_bind_ok h
  cases hget
  obtain ⟨-, h⟩ := raiseIf_bind_ok h
  obtain ⟨-, h⟩ := raiseIf_bind_ok h
  obtain ⟨hload, hcpl⟩ := loadSeg_after_read (hP (not_null_of_selNull hnull)) hread rfl h
  exact ⟨hload, hcpl.trans (readDescriptor_segsLoad (P := P) hread).2.2⟩

theorem loadTaskData_ok {r : SegReg} (hP : MayMark P u sel) (h : loadTaskData r sel u = .ok ((), v)) :
    LoadsReg P r sel u v ∧ v.cplField = u.cplField := by
  unfold loadTaskData at h
  cases hnull : selNull sel with
  | true =>
    rw [hnull] at h
    cases h
    exact ⟨⟨segsLoad_of_eq rfl, _, rfl⟩, rfl⟩
  | false =>
    rw [hnull] at h
    obtain ⟨d, w, hread, h⟩ := exec_bind_ok h
    obtain ⟨_, _, hget, h⟩ := exec_bind_ok h
    cases hget
    obtain ⟨-, h⟩ := raiseIf_bind_ok h
    obtain ⟨-, h⟩ := raiseIf_bind_ok h
    obtain ⟨hload, hcpl⟩ := loadSeg_after_read (hP (not_null_of_selNull hnull)) hread rfl h
    exact ⟨hload, hcpl.trans (readDescriptor_segsLoad (P := P) hread).2.2⟩

theorem MayMark.of_load (h : SegsLoad P u v) (hP : MayMark P u sel) : MayMark P v sel := fun hnull => by
  rw [h.descriptorAddr]
  exact hP hnull

end

/-- The selectors of a context that stand in segment registers, in the order of their loads. -/
def TaskContext.selectors (c : TaskContext) : List Word16 := [c.cs, c.ss, c.ds, c.es, c.fs, c.gs]

/-- The segment registers `v` hold the selectors of `c`, and the level fits. -/
structure TaskSegments (c : TaskContext) (v : State) : Prop where
  es : v.segs.es.sel = c.es
  cs : v.segs.cs.sel = c.cs
  ss : v.segs.ss.sel = c.ss
  ds : v.segs.ds.sel = c.ds
  fs : v.segs.fs.sel = c.fs
  gs : v.segs.gs.sel = c.gs
  level : v.cplField = if v.vm then 3 else selRpl c.cs

section
variable {P : Word32 → Prop} {c : TaskContext} {u v : State}

theorem loadTaskSegments_v86 (hvm : u.vm = true) (h : loadTaskSegments c u = .ok ((), v)) :
    v = u.loadV86All c.es c.cs c.ss c.ds c.fs c.gs := by
  unfold loadTaskSegments at h
  rw [exec_bind_of_ok (exec_get u), hvm] at h
  cases h
  rfl

/-- Each register is loaded once, and keeps what was loaded. -/
theorem loadTaskSegments_protected (hvm : u.vm = false) (hP : ∀ sel ∈ c.selectors, MayMark P u sel)
    (h : loadTaskSegments c u = .ok ((), v)) : SegsLoad P u v ∧ TaskSegments c v := by
  unfold loadTaskSegments at h
  rw [exec_bind_of_ok (exec_get u), hvm] at h
  obtain ⟨_, u₁, h₁, h⟩ := exec_bind_ok h
  obtain ⟨_, u₂, h₂, h⟩ := exec_bind_ok h
  obtain ⟨_, u₃, h₃, h⟩ := exec_bind_ok h
  obtain ⟨_, u₄, h₄, h⟩ := exec_bind_ok h
  obtain ⟨_, u₅, h₅, h₆⟩ := exec_bind_ok h
  obtain ⟨⟨l₁, c₁, s₁⟩, e₁⟩ := loadTaskCode_ok (hP c.cs (by simp [TaskContext.selectors])) h₁
  obtain ⟨⟨l₂, c₂, s₂⟩, e₂⟩ := loadTaskStack_ok ((hP c.ss (by simp [TaskContext.selectors])).of_load l₁) h₂
  have k₂ := l₁.trans l₂
  obtain ⟨⟨l₃, c₃, s₃⟩, e₃⟩ := loadTaskData_ok ((hP c.ds (by simp [TaskContext.selectors])).of_load k₂) h₃
  have k₃ := k₂.trans l₃
  obtain ⟨⟨l₄, c₄, s₄⟩, e₄⟩ := loadTaskData_ok ((hP c.es (by simp [TaskContext.selectors])).of_load k₃) h₄
  have k₄ := k₃.trans l₄
  obtain ⟨⟨l₅, c₅, s₅⟩, e₅⟩ := loadTaskData_ok ((hP c.fs (by simp [TaskContext.selectors])).of_load k₄) h₅
  have k₅ := k₄.trans l₅
  obtain ⟨⟨l₆, c₆, s₆⟩, e₆⟩ := loadTaskData_ok ((hP c.gs (by simp [TaskContext.selectors])).of_load k₅) h₆
  have k₆ := k₅.trans l₆
  rw [s₅, s₄, s₃, s₂, s₁] at s₆
  have hvmv : v.vm = false := by
    rw [k₆.rest]
    exact hvm
  refine ⟨k₆, ?_, ?_, ?_, ?_, ?_, ?_, ?_⟩
  case refine_7 => rw [hvmv, e₆, e₅, e₄, e₃, e₂, e₁]; rfl
  all_goals rw [s₆]; rfl

end

end Sys2Proof.Machine
end

section
/-! PROOFS. The steps of a task switch and the registers it leaves (20_memory.md R157, R159; 44_task_and_coprocessor_instructions.md R303,
R304; 10_state.md R83, R101). -/

namespace Sys2Proof.Machine

/-! ### The steps -/

/-- The state in which the incoming task's segment registers are loaded, from the state `w` before (R159). -/
def State.entered (w : State) (sel : Word16) (d : SegCache) (kind : SwitchKind) (c : TaskContext) : State :=
  ({ w with tr := { sel := sel, cache := { d with attr := d.attr ||| 2 } } } : State).enterTask kind c

/-- A completed task switch has completed each of its steps. -/
theorem taskSwitch_steps {sel : Word16} {d : SegCache} {kind : SwitchKind} {eip eflags ext : Word32} {s t : State}
    (h : taskSwitch sel d kind eip eflags ext s = .ok ((), t)) : ∃ (u v v' w y z : State) (c : TaskContext),
      saveContext s.tr.cache eip eflags s = .ok ((), u)
      ∧ markBusy (if kind.nests then sel else s.tr.sel) kind.nests u = .ok ((), v)
      ∧ readContext d v = .ok (c, v')
      ∧ onlyIf kind.nests (sysWrite d.base 2 s.tr.sel.toNat) v' = .ok ((), w)
      ∧ loadTaskLdt c.ldt (w.entered sel d kind c) = .ok ((), y)
      ∧ loadTaskSegments c y = .ok ((), z)
      ∧ t = z.setEip z.eip := by
  unfold taskSwitch at h
  rw [exec_bind_of_ok (exec_get s)] at h
  obtain ⟨-, h⟩ := raiseIf_bind_ok h
  obtain ⟨-, h⟩ := raiseIf_bind_ok h
  have hbody : switchBody sel d kind eip eflags s = .ok ((), t) := by
    unfold refuseFaults at h
    split at h
    · cases h
    · exact h
  unfold switchBody at hbody
  rw [exec_bind_of_ok (exec_get s)] at hbody
  obtain ⟨_, u, hsave, h⟩ := exec_bind_ok hbody
  obtain ⟨_, v, hmark, h⟩ := exec_bind_ok h
  obtain ⟨c, v', hread, h⟩ := exec_bind_ok h
  obtain ⟨_, w, hlink, h⟩ := exec_bind_ok h
  obtain ⟨_, x, henter, h⟩ := exec_bind_ok h
  obtain ⟨_, y, hldt, h⟩ := exec_bind_ok h
  obtain ⟨_, z, hsegs, h⟩ := exec_bind_ok h
  cases h
  have hx : x = w.entered sel d kind c := by
    rw [withType_busy] at henter
    cases henter
    rfl
  exact ⟨u, v, v', w, y, z, c, hsave, hmark, hread, hlink, hx ▸ hldt, hsegs, rfl⟩

/-! ### LDTR -/

theorem loadTaskLdt_ok {sel : Word16} {x y : State} (h : loadTaskLdt sel x = .ok ((), y)) :
    ∃ (w : State) (g : SegState), MmuKept x w ∧ (x.paging = false → w = x) ∧ y = { w with ldtr := g } ∧ g.sel = sel := by
  unfold loadTaskLdt at h
  cases hnull : selNull sel with
  | true =>
    rw [hnull] at h
    cases h
    exact ⟨x, _, mmuKept_closed.frame.refl x, fun _ => rfl, rfl, rfl⟩
  | false =>
    rw [hnull] at h
    obtain ⟨-, h⟩ := raiseIf_bind_ok h
    obtain ⟨d, w, hread, h⟩ := exec_bind_ok h
    obtain ⟨-, h⟩ := raiseIf_bind_ok h
    cases h
    exact ⟨w, _, keeps_readDescriptor mmuKept_closed _ _ _ _ _ hread, fun hflat => readDescriptor_flat_ok hflat hread, rfl, rfl⟩

/-! ### The incoming task, from its entry on -/

/-- `t` is what the loads of the incoming task of context `c` leave of the state `x` in which they begin. -/
structure TaskLoaded (c : TaskContext) (x t : State) : Prop where
  rest : t = { x with
    ldtr := t.ldtr, segs := t.segs, cplField := t.cplField, eip := t.eip, tlb := t.tlb, mem := t.mem, draws := t.draws }
  tlbLength : t.tlb.length = x.tlb.length
  tlb : x.paging = false → t.tlb = x.tlb
  ldtr : t.ldtr.sel = c.ldt
  segments : TaskSegments c t
  eip : t.eip = codeOffset t.codeSize x.eip
  paragraphs : t.vm = true → ∀ r, (t.seg r).cache = (x.seg r).cache.atParagraph (t.seg r).sel
  bytes : x.paging = false → Memory.wf x.mem = true → ∀ a, t.physByte a = x.physByte a ∨ (t.physByte a = x.physByte a ||| 1
    ∧ t.vm = false ∧ ∃ sel ∈ [c.cs, c.ss, c.ds, c.es, c.fs, c.gs], field sel 2 14 ≠ 0 ∧ a = t.descriptorAddr sel + 5)

/-- The byte of a descriptor of the incoming task that holds its accessed bit, and none in Virtual-86 Mode. -/
def TaskMarks (c : TaskContext) (y : State) (a : Word32) : Prop :=
  y.vm = false ∧ ∃ sel ∈ c.selectors, field sel 2 14 ≠ 0 ∧ a = y.descriptorAddr sel + 5

/-- The two ways the segment registers are loaded (R304). -/
theorem loadTaskSegments_ok {c : TaskContext} {y z : State} (h : loadTaskSegments c y = .ok ((), z)) :
    SegsLoad (TaskMarks c y) y z ∧ TaskSegments c z
      ∧ (z.vm = true → ∀ r, (z.seg r).cache = (y.seg r).cache.atParagraph (z.seg r).sel) := by
  cases hvm : y.vm with
  | true =>
    have hz := loadTaskSegments_v86 hvm h
    rw [loadV86All_eq] at hz
    have hlevel : z.cplField = if z.vm then 3 else selRpl c.cs := by
      rw [hz]
      exact (if_pos hvm).symm
    refine ⟨segsLoad_of_eq (by rw [hz]), ⟨?_, ?_, ?_, ?_, ?_, ?_, hlevel⟩, fun _ r => ?_⟩
    case refine_7 => rw [hz]; cases r <;> rfl
    all_goals rw [hz]; rfl
  | false =>
    obtain ⟨hload, hsegs⟩ := loadTaskSegments_protected (P := TaskMarks c y) hvm
      (fun sel hmem hnull => ⟨hvm, sel, hmem, hnull, rfl⟩) h
    refine ⟨hload, hsegs, fun hv => ?_⟩
    rw [hload.rest] at hv
    exact absurd (hvm.symm.trans hv) (by decide)

theorem taskLoaded_of_steps {c : TaskContext} {x y z : State} (hldt : loadTaskLdt c.ldt x = .ok ((), y))
    (hsegs : loadTaskSegments c y = .ok ((), z)) : TaskLoaded c x (z.setEip z.eip) := by
  obtain ⟨w, g, hw, hwflat, rfl, hg⟩ := loadTaskLdt_ok hldt
  obtain ⟨hload, hsegs, hparagraphs⟩ := loadTaskSegments_ok hsegs
  have hwx : { w with ldtr := g } = { x with ldtr := g, tlb := w.tlb, mem := w.mem, draws := w.draws } := by rw [hw.1]
  have hpaging : State.paging { w with ldtr := g } = x.paging := by
    rw [hwx]
    rfl
  refine { rest := ?_, tlbLength := ?_, tlb := fun hflat => ?_, ldtr := ?_,
           segments := ⟨hsegs.es, hsegs.cs, hsegs.ss, hsegs.ds, hsegs.fs, hsegs.gs, hsegs.level⟩, eip := ?_,
           paragraphs := fun hvm r => ?_, bytes := fun hflat hwf a => ?_ }
  · rw [State.setEip, hload.rest, hw.1]
  · exact hload.tlbLength.trans hw.2
  · have htlb : w.tlb = x.tlb := congrArg State.tlb (hwflat hflat)
    exact (hload.tlb (hpaging.trans hflat)).trans htlb
  · rw [State.setEip, hload.rest]
    exact hg
  · have heip : z.eip = x.eip := by rw [hload.rest, hw.1]
    exact congrArg (codeOffset z.codeSize) heip
  · have hsame : State.seg { w with ldtr := g } r = x.seg r := by rw [hw.1]; rfl
    exact (hparagraphs hvm r).trans (by rw [hsame]; rfl)
  · have hwx := hwflat hflat
    subst hwx
    obtain hsame | ⟨hset, hvm, sel, hmem, hnull, ha⟩ := hload.bytes (hpaging.trans hflat) hwf a
    · exact .inl hsame
    · refine .inr ⟨hset, ?_, sel, hmem, hnull, ?_⟩
      · rw [State.setEip, hload.rest]
        exact hvm
      · rw [ha, ← hload.descriptorAddr]
        rfl

/-! ### The registers a switch leaves (R303; 10_state.md R83, R101) -/

section
variable {w t : State} {sel : Word16} {d : SegCache} {kind : SwitchKind} {c : TaskContext}

theorem entered_eq : w.entered sel d kind c = { w with
    tr := { sel := sel, cache := { d with attr := d.attr ||| 2 } }, tlb := w.flushTlb.tlb, cr3 := c.cr3 &&& 0xFFFFF018, eip := c.eip
    eflags := if kind.nests then w.fixImage c.eflags ||| 0x00004000 else w.fixImage c.eflags, gpr := c.gpr
    cr0 := w.cr0 ||| 0x00000008, dr7 := w.dr7 &&& ~~~ 0x00000055, pending := { w.pending with taskSwitch := c.t } } := rfl

/-- NT is set by the switches that write the back link. -/
theorem nt_of_nests (h : kind.nests = true) (hload : TaskLoaded c (w.entered sel d kind c) t) : t.nt = true := by
  have hfl : t.eflags = w.fixImage c.eflags ||| 0x00004000 := by
    rw [hload.rest, entered_eq, h]
    rfl
  rw [State.nt, hfl, bit_or]
  exact Bool.or_true _

theorem TaskLoaded.cpl {x : State} (hload : TaskLoaded c x t) (hpe : t.pe = true) :
    (t.vm = true → t.cpl = 3) ∧ (t.vm = false → t.cpl = field t.segs.cs.sel 0 2) := by
  refine ⟨fun hvm => cpl_of_v86 (v86_iff.mpr ⟨hpe, hvm⟩), fun hvm => ?_⟩
  rw [State.cpl, hpe, hvm, hload.segments.level, hload.segments.cs, hvm]
  rfl

end

/-- What a completed switch leaves of the registers that are no part of a task. -/
structure SwitchRegisters (sel : Word16) (d : SegCache) (kind : SwitchKind) (s t : State) : Prop where
  tr : t.tr = { sel := sel, cache := { d with attr := d.attr ||| 2 } }
  cr0 : t.cr0 = s.cr0 ||| 0x00000008
  dr7 : t.dr7 = s.dr7 &&& ~~~ 0x00000055
  nt : kind = .call ∨ kind = .event → t.nt = true
  rest : t = { s with
    gpr := t.gpr, eip := t.eip, eflags := t.eflags, segs := t.segs, ldtr := t.ldtr, tr := t.tr, cr0 := t.cr0, cr3 := t.cr3
    dr7 := t.dr7, tlb := t.tlb, cplField := t.cplField, pending := t.pending, mem := t.mem, draws := t.draws }
  tlbLength : t.tlb.length = s.tlb.length

theorem nests_iff {kind : SwitchKind} : kind.nests = true ↔ kind = .call ∨ kind = .event := by
  cases kind <;> simp [SwitchKind.nests]

theorem switchRegisters_of_loaded {sel : Word16} {d : SegCache} {kind : SwitchKind} {c : TaskContext} {s w t : State}
    (hw : MmuKept s w) (hload : TaskLoaded c (w.entered sel d kind c) t) : SwitchRegisters sel d kind s t where
  tr := by rw [hload.rest]; rfl
  cr0 := by rw [hload.rest, entered_eq, hw.1]
  dr7 := by rw [hload.rest, entered_eq, hw.1]
  nt h := nt_of_nests (nests_iff.mpr h) hload
  rest := by rw [hload.rest, entered_eq, hw.1]
  tlbLength := hload.tlbLength.trans ((List.length_map ..).trans hw.2)

end Sys2Proof.Machine
end

section
/-! PROOFS. The contexts that a task switch saves and loads with paging off (20_memory.md R157, R159). -/

namespace Sys2Proof.Machine

/-! ### Fields written at offsets of a TSS -/

theorem storeBytes_append {as as' : List Word32} {bs bs' : List Byte} (hlen : as.length = bs.length) (s : State) :
    (s.storeBytes as bs).storeBytes as' bs' = s.storeBytes (as ++ as') (bs ++ bs') := by
  induction as generalizing s bs with
  | nil =>
    obtain rfl : bs = [] := List.eq_nil_of_length_eq_zero hlen.symm
    rw [storeBytes_nil]
    rfl
  | cons a as ih =>
    cases bs with
    | nil => cases hlen
    | cons b bs => exact ih (Nat.succ.inj hlen) _

/-- The addresses of fields at offsets from `base`, in order. -/
def slotAddrs (base : Word32) (slots : List (Word32 × List Byte)) : List Word32 :=
  slots.flatMap fun x => addrsFrom (base + x.1) x.2.length

/-- With paging off `m` stores the fields `slots` of the TSS at `base`, in order, and does nothing else. -/
def Stores (base : Word32) (slots : List (Word32 × List Byte)) (m : Exec Unit) : Prop :=
  ∀ s t, s.paging = false → m s = .ok ((), t) → t = s.storeBytes (slotAddrs base slots) (slots.flatMap Prod.snd)

theorem storeBytes_paging (s : State) (pas : List Word32) (vs : List Byte) : (s.storeBytes pas vs).paging = s.paging := by
  rw [storeBytes_eq]
  rfl

theorem addrsFrom_length (a : Word32) (n : Nat) : (addrsFrom a n).length = n := by
  rw [addrsFrom_eq_map, List.length_map, List.length_range]

theorem sysWrite_flat_ok {lin : Word32} {n v : Nat} {s t : State} (hflat : s.paging = false) (h : sysWrite lin n v s = .ok ((), t)) :
    s.deviceAt (addrsFrom lin n) = false ∧ t = s.storeBytes (addrsFrom lin n) (toBytes n v) := by
  obtain ⟨pas, u, hrange, hstore⟩ := exec_bind_ok h
  obtain ⟨hdev, rfl, rfl⟩ := translateRange_flat_ok hflat hrange
  cases hstore
  exact ⟨hdev, rfl⟩

section
variable {base o : Word32} {n v : Nat} {bs : List Byte}

theorem stores_one (hbytes : toBytes n v = bs) (hlen : bs.length = n) : Stores base [(o, bs)] (sysWrite (base + o) n v) := by
  intro s t hflat h
  obtain ⟨-, rfl⟩ := sysWrite_flat_ok hflat h
  subst hlen
  simp only [slotAddrs, List.flatMap_cons, List.flatMap_nil, List.append_nil, hbytes]

theorem stores_cons {slots : List (Word32 × List Byte)} {m : Exec Unit} (hbytes : toBytes n v = bs) (hlen : bs.length = n)
    (hm : Stores base slots m) : Stores base ((o, bs) :: slots) (do sysWrite (base + o) n v; m) := by
  intro s t hflat h
  obtain ⟨_, u, hwrite, h⟩ := exec_bind_ok h
  obtain ⟨-, rfl⟩ := sysWrite_flat_ok hflat hwrite
  subst hlen
  rw [hbytes] at h
  rw [hm _ _ ((storeBytes_paging ..).trans hflat) h, storeBytes_append (addrsFrom_length ..)]
  rfl

theorem stores_word {slots : List (Word32 × List Byte)} {m : Exec Unit} (w : Word16) (hm : Stores base slots m) :
    Stores base ((o, bytes16 w) :: slots) (do sysWrite (base + o) 2 w.toNat; m) := stores_cons (toBytes_two w) rfl hm

theorem stores_double {slots : List (Word32 × List Byte)} {m : Exec Unit} (w : Word32) (hm : Stores base slots m) :
    Stores base ((o, bytes32 w) :: slots) (do sysWrite (base + o) 4 w.toNat; m) := stores_cons (toBytes_four w) rfl hm

end

/-! ### The outgoing context -/

theorem saveContext_stores {c : SegCache} {eip eflags : Word32} {s u : State} (hflat : s.paging = false)
    (h : saveContext c eip eflags s = .ok ((), u)) : u = s.storeBytes (slotAddrs c.base (s.savedSlots c eip eflags))
      ((s.savedSlots c eip eflags).flatMap Prod.snd) := by
  unfold saveContext at h
  unfold State.savedSlots
  cases hsize : c.isTss16 with
  | true =>
    rw [hsize, if_pos rfl, saveContext16, exec_bind_of_ok (exec_get s)] at h
    refine (?_ : Stores c.base _ _) s u hflat h
    exact stores_word _ (stores_word _ (stores_word _ (stores_word _ (stores_word _ (stores_word _ (stores_word _ (stores_word _
      (stores_word _ (stores_word _ (stores_word _ (stores_word _ (stores_word _ (stores_one (toBytes_two _) rfl)))))))))))))
  | false =>
    rw [hsize, if_neg (by decide), saveContext32, exec_bind_of_ok (exec_get s)] at h
    refine (?_ : Stores c.base _ _) s u hflat h
    exact stores_double _ (stores_double _ (stores_double _ (stores_double _ (stores_double _ (stores_double _ (stores_double _
      (stores_double _ (stores_double _ (stores_double _ (stores_word _ (stores_word _ (stores_word _ (stores_word _ (stores_word _
        (stores_one (toBytes_two _) rfl)))))))))))))))

/-- The fields of the context, as numbers of bytes above the base of the TSS (R157; log 45). -/
def savedOffsets (d : SegCache) : List Nat :=
  if d.isTss16 then List.range' 0x0E 0x1C
  else List.range' 0x20 0x2A ++ [0x4C, 0x4D, 0x50, 0x51, 0x54, 0x55, 0x58, 0x59, 0x5C, 0x5D]

theorem addrsFrom_offset (base : Word32) (o n : Nat) :
    addrsFrom (base + BitVec.ofNat 32 o) n = (List.range' o n).map fun k => base + BitVec.ofNat 32 k := by
  rw [addrsFrom_eq_map, List.range'_eq_map_range, List.map_map]
  refine List.map_congr_left fun k _ => ?_
  rw [Function.comp_apply, BitVec.ofNat_add, BitVec.add_assoc]

theorem slotAddrs_offsets (base : Word32) (slots : List (Word32 × List Byte)) :
    slotAddrs base slots = (slots.flatMap fun x => List.range' x.1.toNat x.2.length).map fun k => base + BitVec.ofNat 32 k := by
  rw [slotAddrs, List.map_flatMap]
  refine congrArg (slots.flatMap ·) (funext fun x => ?_)
  rw [← addrsFrom_offset, BitVec.ofNat_toNat, BitVec.setWidth_eq]

theorem slotAddrs_savedSlots (s : State) (d : SegCache) (eip eflags : Word32) :
    slotAddrs d.base (s.savedSlots d eip eflags) = (savedOffsets d).map fun k => d.base + BitVec.ofNat 32 k := by
  rw [slotAddrs_offsets]
  unfold State.savedSlots savedOffsets
  split <;> rfl

/-- The fields lie in order among the saved bytes. -/
theorem slotAddrs_sublist (s : State) (d : SegCache) (eip eflags : Word32) :
    (slotAddrs d.base (s.savedSlots d eip eflags)).Sublist (savedBytes d) := by
  rw [slotAddrs_savedSlots]
  unfold savedOffsets savedBytes
  split
  · exact (addrsFrom_offset d.base 0x0E 0x1C) ▸ List.Sublist.refl _
  · exact (addrsFrom_offset d.base 0x20 0x3E) ▸ List.Sublist.map _ (by decide)

theorem nodup_addrsFrom (a : Word32) {n : Nat} (h : n ≤ 4096) : (addrsFrom a n).Nodup := .of_map pageOffset (nodup_pageOffsets a h)

theorem nodup_savedBytes (d : SegCache) : (savedBytes d).Nodup := by
  unfold savedBytes
  split
  · exact nodup_addrsFrom _ (by decide)
  · exact nodup_addrsFrom _ (by decide)

/-- Fields stored in one list of bytes are found at their addresses. -/
theorem bytesAt_slot {base : Word32} {slots : List (Word32 × List Byte)} {u : State}
    (h : u.bytesAt (slotAddrs base slots) = slots.flatMap Prod.snd) {o : Word32} {bs : List Byte} (hmem : (o, bs) ∈ slots) :
    u.bytesAt (addrsFrom (base + o) bs.length) = bs := by
  induction slots with
  | nil => cases hmem
  | cons x slots ih =>
    have hsplit : u.bytesAt (addrsFrom (base + x.1) x.2.length) ++ u.bytesAt (slotAddrs base slots) = x.2 ++ slots.flatMap Prod.snd :=
      List.map_append.symm.trans h
    obtain ⟨hfirst, hrest⟩ := List.append_inj hsplit (by rw [State.bytesAt, List.length_map, addrsFrom_length])
    obtain rfl | hmem := List.mem_cons.mp hmem
    · exact hfirst
    · exact ih hrest hmem

theorem slotAddrs_length (base : Word32) (slots : List (Word32 × List Byte)) :
    (slotAddrs base slots).length = (slots.flatMap Prod.snd).length := by
  simp only [slotAddrs, List.length_flatMap, addrsFrom_length]

theorem contextSaved_of_saveContext {c : SegCache} {eip eflags : Word32} {s u : State} (hflat : s.paging = false)
    (hwf : Memory.wf s.mem = true) (hram : s.ram (savedBytes c) = true) (h : saveContext c eip eflags s = .ok ((), u)) :
    ContextSaved c eip eflags s u ∧ Memory.wf u.mem = true := by
  obtain rfl := saveContext_stores hflat h
  have hsub := slotAddrs_sublist s c eip eflags
  have hramSlots : s.ram (slotAddrs c.base (s.savedSlots c eip eflags)) = true := by
    rw [State.ram, List.all_eq_true] at hram ⊢
    exact fun a ha => hram a (hsub.subset ha)
  refine ⟨{ rest := by rw [storeBytes_eq], saved := fun o bs hmem => ?_, bytes := fun a ha => ?_ }, storeBytes_wf _ _ hwf⟩
  · exact bytesAt_slot (bytesAt_storeBytes (slotAddrs_length ..) ((nodup_savedBytes c).sublist hsub) hramSlots hwf) hmem
  · refine physByte_storeBytes_other _ (fun hin => ?_) hwf
    obtain ⟨x, hx, hax⟩ := List.mem_flatMap.mp hin
    exact ha x.1 x.2 hx hax

/-! ### The incoming context -/

/-- If `m` answers in state `s`, then with `v` and in state `t`. -/
def Answers {α : Type} (m : Exec α) (s : State) (v : α) (t : State) : Prop := ∀ x u, m s = .ok (x, u) → x = v ∧ u = t

theorem answers_pure {α : Type} (v : α) (s : State) : Answers (pure v) s v s := by
  intro x u h
  cases h
  exact ⟨rfl, rfl⟩

theorem answers_bind {α β : Type} {m : Exec α} {f : α → Exec β} {s t u : State} {v : α} {w : β} (hm : Answers m s v t)
    (hf : Answers (f v) t w u) : Answers (m >>= f) s w u := by
  intro x r h
  obtain ⟨y, r', hy, h⟩ := exec_bind_ok h
  obtain ⟨rfl, rfl⟩ := hm y r' hy
  exact hf x r h

section
variable {s : State} (hflat : s.paging = false) (base off : Word32)
include hflat

theorem answers_tss16 : Answers (tss16 base off) s (s.phys16 (base + off)) s := fun _ _ h => tss16_flat_ok hflat h

theorem answers_tss32 : Answers (tss32 base off) s (s.phys32 (base + off)) s := by
  intro x u h
  obtain ⟨v, u', hread, h⟩ := exec_bind_ok h
  obtain ⟨rfl, rfl⟩ := sysRead_flat_ok hflat hread
  cases h
  rw [littleEndian_phys32, BitVec.ofNat_toNat, BitVec.setWidth_eq]
  exact ⟨rfl, rfl⟩

theorem answers_sysRead (lin : Word32) (n : Nat) : Answers (sysRead lin n) s (littleEndian (s.bytesAt (addrsFrom lin n))) s :=
  fun _ _ h => sysRead_flat_ok hflat h

theorem answers_readTssGprs32 : Answers (readTssGprs32 base) s
    { eax := s.phys32 (base + 0x28), ecx := s.phys32 (base + 0x2C), edx := s.phys32 (base + 0x30), ebx := s.phys32 (base + 0x34)
      esp := s.phys32 (base + 0x38), ebp := s.phys32 (base + 0x3C), esi := s.phys32 (base + 0x40), edi := s.phys32 (base + 0x44) } s := by
  have read (off : Word32) := answers_tss32 hflat base off
  exact answers_bind (read _) (answers_bind (read _) (answers_bind (read _) (answers_bind (read _) (answers_bind (read _)
    (answers_bind (read _) (answers_bind (read _) (answers_bind (read _) (answers_pure _ _))))))))

/-- The upper halves are the value that is drawn first (log 45). -/
theorem answers_readTssGprs16 : Answers (readTssGprs16 base) s
    { eax := Config.tssUpper s.draws 0 ++ s.phys16 (base + 0x12), ecx := Config.tssUpper s.draws 1 ++ s.phys16 (base + 0x14)
      edx := Config.tssUpper s.draws 2 ++ s.phys16 (base + 0x16), ebx := Config.tssUpper s.draws 3 ++ s.phys16 (base + 0x18)
      esp := Config.tssUpper s.draws 4 ++ s.phys16 (base + 0x1A), ebp := Config.tssUpper s.draws 5 ++ s.phys16 (base + 0x1C)
      esi := Config.tssUpper s.draws 6 ++ s.phys16 (base + 0x1E), edi := Config.tssUpper s.draws 7 ++ s.phys16 (base + 0x20) }
    { s with draws := s.draws + 1 } := by
  have hdraw : Answers draw s s.draws { s with draws := s.draws + 1 } := by
    intro x u h
    cases h
    exact ⟨rfl, rfl⟩
  have read (off : Word32) : Answers (tss16 base off) { s with draws := s.draws + 1 } (s.phys16 (base + off))
      { s with draws := s.draws + 1 } := answers_tss16 (s := { s with draws := s.draws + 1 }) hflat base off
  exact answers_bind hdraw (answers_bind (read _) (answers_bind (read _) (answers_bind (read _) (answers_bind (read _)
    (answers_bind (read _) (answers_bind (read _) (answers_bind (read _) (answers_bind (read _) (answers_pure _ _)))))))))

end

section
variable {d : SegCache} {v : State} (hflat : v.paging = false)
include hflat

theorem answers_readContext16 (hsize : d.isTss16 = true) : Answers (readContext16 d.base) v
    (v.contextAt d (Config.tssUpper v.draws)) { v with draws := v.draws + 1 } := by
  have before (off : Word32) := answers_tss16 hflat d.base off
  have after (off : Word32) : Answers (tss16 d.base off) { v with draws := v.draws + 1 } (v.phys16 (d.base + off))
      { v with draws := v.draws + 1 } := answers_tss16 (s := { v with draws := v.draws + 1 }) hflat d.base off
  have hget : Answers (get : Exec State) v v v := fun _ _ h => by cases h; exact ⟨rfl, rfl⟩
  unfold State.contextAt
  rw [hsize, if_pos rfl]
  exact answers_bind hget (answers_bind (before _) (answers_bind (before _) (answers_bind (answers_readTssGprs16 hflat d.base)
    (answers_bind (after _) (answers_bind (after _) (answers_bind (after _) (answers_bind (after _) (answers_bind (after _)
      (answers_pure _ _)))))))))

theorem answers_readContext32 (hsize : d.isTss16 = false) (upper : BitVec 3 → Word16) :
    Answers (readContext32 d.base) v (v.contextAt d upper) v := by
  have double (off : Word32) := answers_tss32 hflat d.base off
  have word (off : Word32) := answers_tss16 hflat d.base off
  have hget : Answers (get : Exec State) v v v := fun _ _ h => by cases h; exact ⟨rfl, rfl⟩
  unfold State.contextAt
  rw [hsize, if_neg (by decide)]
  exact answers_bind hget (answers_bind (double _) (answers_bind (double _) (answers_bind (double _)
    (answers_bind (answers_readTssGprs32 hflat d.base) (answers_bind (word _) (answers_bind (word _) (answers_bind (word _)
      (answers_bind (word _) (answers_bind (word _) (answers_bind (word _) (answers_bind (word _)
        (answers_bind (answers_sysRead hflat _ _) (answers_pure _ _)))))))))))))

/-- The context read is the one that the TSS holds, and only the count of free values changes. -/
theorem readContext_flat_ok {c : TaskContext} {w : State} (h : readContext d v = .ok (c, w)) :
    c = v.contextAt d (Config.tssUpper v.draws) ∧ w = { v with draws := w.draws } := by
  unfold readContext at h
  cases hsize : d.isTss16 with
  | true =>
    rw [hsize, if_pos rfl] at h
    obtain ⟨hc, rfl⟩ := answers_readContext16 hflat hsize c w h
    exact ⟨hc, rfl⟩
  | false =>
    rw [hsize, if_neg (by decide)] at h
    obtain ⟨hc, rfl⟩ := answers_readContext32 hflat hsize (Config.tssUpper v.draws) c w h
    exact ⟨hc, rfl⟩

end

end Sys2Proof.Machine
end

section
/-! PROOFS. What a completed task switch leaves (20_memory.md R157, R159; 44_task_and_coprocessor_instructions.md R303, R304; 10_state.md
R83, R101). -/

namespace Sys2Proof.Machine

/-! ### The busy bit and the back link -/

theorem MmuKept.paging {s t : State} (h : MmuKept s t) : t.paging = s.paging := by
  rw [h.1]
  rfl

theorem MmuKept.ram {s t : State} (h : MmuKept s t) (pas : List Word32) : t.ram pas = s.ram pas := by
  rw [h.1]
  rfl

theorem MmuKept.descriptorAddr {s t : State} (h : MmuKept s t) (sel : Word16) : t.descriptorAddr sel = s.descriptorAddr sel := by
  rw [h.1]
  rfl

theorem setBit_one (b : Byte) (busy : Bool) : setBit b 1 busy = if busy then b ||| 2 else b &&& ~~~ 2 := by
  cases busy <;> rfl

/-- With paging off the busy bit is stored in byte 5 of the descriptor, and no other byte changes (20_memory.md R149). -/
theorem markBusy_flat_ok {sel : Word16} {busy : Bool} {u v : State} (hflat : u.paging = false) (hwf : Memory.wf u.mem = true)
    (hram : u.ram [u.descriptorAddr sel + 5] = true) (h : markBusy sel busy u = .ok ((), v)) :
    v.physByte (u.descriptorAddr sel + 5) = (if busy then u.physByte (u.descriptorAddr sel + 5) ||| 2
        else u.physByte (u.descriptorAddr sel + 5) &&& ~~~ 2)
      ∧ (∀ a, a ≠ u.descriptorAddr sel + 5 → v.physByte a = u.physByte a) ∧ Memory.wf v.mem = true := by
  obtain rfl := updateType_flat_ok hflat h
  have hkind : u.part.kindAt (u.descriptorAddr sel + 5) = .ram := by simpa [State.ram] using hram
  refine ⟨?_, fun a ha => physByte_storeByte_other _ ha hwf, storeByte_wf _ _ hwf⟩
  rw [physByte_storeByte _ hkind hwf, setBit_one]

/-- The back link is written by the switches that nest, and by no other. -/
theorem backLink_flat_ok {base : Word32} {link : Word16} {nests : Bool} {v w : State} (hflat : v.paging = false)
    (hwf : Memory.wf v.mem = true) (hram : nests = true → v.ram (addrsFrom base 2) = true)
    (h : onlyIf nests (sysWrite base 2 link.toNat) v = .ok ((), w)) :
    (nests = true → w.phys16 base = link ∧ ∀ a, a ∉ addrsFrom base 2 → w.physByte a = v.physByte a)
      ∧ (nests = false → w = v) ∧ Memory.wf w.mem = true := by
  cases nests with
  | true =>
    obtain ⟨-, rfl⟩ := sysWrite_flat_ok hflat h
    rw [toBytes_two]
    refine ⟨fun _ => ⟨phys16_of_bytesAt ?_, fun a ha => physByte_storeBytes_other _ ha hwf⟩, fun hn => absurd hn (by decide),
      storeBytes_wf _ _ hwf⟩
    exact bytesAt_storeBytes rfl (nodup_addrsFrom _ (by decide)) (hram rfl) hwf
  | false =>
    cases h
    exact ⟨fun hn => absurd hn (by decide), fun _ => rfl, hwf⟩

/-! ### The incoming context -/

section
variable {sel : Word16} {d : SegCache} {kind : SwitchKind} {c : TaskContext} {s w t : State}

theorem entered_paging : (w.entered sel d kind c).paging = w.paging := by
  have hcr0 : (w.entered sel d kind c).cr0 = w.cr0 ||| 0x00000008 := rfl
  rw [State.paging, State.pg, State.pe, hcr0, bit_or, bit_or]
  exact congrArg₂ (· && ·) (Bool.or_false _) (Bool.or_false _)

theorem tlb_invalid_of_loaded (hflat : w.paging = false) (hload : TaskLoaded c (w.entered sel d kind c) t) :
    ∀ e ∈ t.tlb, e.v = false := by
  rw [hload.tlb (entered_paging.trans hflat)]
  exact fun e he => flushTlb_invalid he

theorem contextLoaded_of_loaded (hw : MmuKept s w) (hload : TaskLoaded c (w.entered sel d kind c) t) :
    ContextLoaded c kind.nests s t where
  gpr := by rw [hload.rest, entered_eq]
  cr3 := by rw [hload.rest, entered_eq]
  eip := by
    rw [hload.eip, entered_eq]
    cases t.codeSize <;> rfl
  eflags := by
    have hfix : w.fixImage c.eflags = s.fixImage c.eflags := by rw [hw.1]; rfl
    rw [hload.rest, entered_eq, hfix]
  segs := by
    obtain ⟨hes, hcs, hss, hds, hfs, hgs, -⟩ := hload.segments
    exact ⟨hes, hcs, hss, hds, hfs, hgs⟩
  paragraphs hvm r := by
    have hseg : (w.entered sel d kind c).seg r = s.seg r := by rw [entered_eq, hw.1]; rfl
    rw [hload.paragraphs hvm r, hseg]
  ldtr := hload.ldtr
  debug := by rw [hload.rest, entered_eq]

end

/-- Settles O55: the registers come from the entry of the incoming task and its loads, and with paging off each step stores at
addresses that are known. -/
theorem taskSwitchRegisters : Obligations.TaskSwitchRegisters := by
  intro sel d kind eip eflags ext s t hpe hswitch
  obtain ⟨u, v, v', w, y, z, c, hsave, hmark, hread, hlink, hldt, hsegs, rfl⟩ := taskSwitch_steps hswitch
  have hu : MmuKept s u := keeps_saveContext mmuKept_closed _ _ _ _ _ _ hsave
  have hv : MmuKept s v := mmuKept_closed.frame.trans _ _ _ hu (keeps_markBusy mmuKept_closed _ _ _ _ _ hmark)
  have hv' : MmuKept s v' := mmuKept_closed.frame.trans _ _ _ hv (keeps_readContext mmuKept_closed _ _ _ _ hread)
  have hw : MmuKept s w := mmuKept_closed.frame.trans _ _ _ hv'
    (keeps_onlyIf mmuKept_closed.frame _ (keeps_sysWrite mmuKept_closed _ _ _) _ _ _ hlink)
  have hload : TaskLoaded c (w.entered sel d kind c) (z.setEip z.eip) := taskLoaded_of_steps hldt hsegs
  refine ⟨?registers, fun hflat hwf => ?memory⟩
  case registers =>
    have hregs := switchRegisters_of_loaded hw hload
    have hpet : (z.setEip z.eip).pe = true := by
      rw [State.pe, hregs.cr0, bit_or]
      exact Bool.or_eq_true_iff.mpr (.inl hpe)
    obtain ⟨hv86, hprot⟩ := hload.cpl hpet
    refine ⟨hregs.tr, hregs.cr0, hregs.dr7, hregs.nt, ?_, ?_, ?_, ?_, ?_, ?_, ?_, ?_, ?_, ?_, ?_, ?_, ?_, ?_, hv86, hprot,
      hregs.tlbLength, fun hflat => tlb_invalid_of_loaded (hw.paging.trans hflat) hload⟩
    all_goals rw [hregs.rest]
  case memory =>
    intro nests marked hram hlinkRam
    have hnests : nests ↔ kind.nests = true := nests_iff.symm
    obtain ⟨hramSaved, hramMarked⟩ := ram_append.mp hram
    obtain ⟨hsaved, hwfu⟩ := contextSaved_of_saveContext hflat hwf hramSaved hsave
    have hmarked : u.descriptorAddr (if kind.nests then sel else s.tr.sel) + 5 = marked := by
      rw [hu.descriptorAddr]
      exact congrArg (s.descriptorAddr · + 5) (if_congr hnests.symm rfl rfl)
    obtain ⟨hbusy, hother, hwfv⟩ := markBusy_flat_ok (hu.paging.trans hflat) hwfu (by rw [hmarked, hu.ram]; exact hramMarked) hmark
    rw [hmarked] at hbusy hother
    obtain ⟨hc, hdraws⟩ := readContext_flat_ok (hv.paging.trans hflat) hread
    have hbytes' (a : Word32) : v'.physByte a = v.physByte a := by rw [hdraws]; rfl
    have hwfv' : Memory.wf v'.mem = true := by rw [hdraws]; exact hwfv
    obtain ⟨hlinked, hplain, hwfw⟩ := backLink_flat_ok (hv'.paging.trans hflat) hwfv'
      (fun hn => (hv'.ram _).trans (hlinkRam (hnests.mpr hn))) hlink
    have hdecide : decide nests = kind.nests := Bool.eq_iff_iff.mpr (decide_eq_true_iff.trans hnests)
    refine ⟨u, v, w, Config.tssUpper v.draws, hsaved, ?_, hother, by rw [hv.1], by rw [hv.1], ?_, fun hn => ?_, fun hn a => ?_,
      fun a => ?_⟩
    · exact hbusy.trans (if_congr hnests.symm rfl rfl)
    · rw [hdecide, ← hc]
      exact contextLoaded_of_loaded hw hload
    · obtain ⟨hword, hrest⟩ := hlinked (hnests.mp hn)
      exact ⟨hword, fun a ha => (hrest a ha).trans (hbytes' a)⟩
    · rw [hplain (Bool.eq_false_of_not_eq_true (mt hnests.mpr hn)), hbytes']
    · rw [← hc]
      exact hload.bytes (entered_paging.trans (hw.paging.trans hflat)) hwfw a

end Sys2Proof.Machine
end

section
/-! PROOFS. What code above level 0 can do (60_exceptions.md R377; 20_memory.md R159): level-0 instructions get no further than their check, and
the updates of all others leave the system registers. -/

namespace Sys2Proof.Machine

/-! ### Level-0 instructions (60 R377) -/

/-- A computation that no level but 0 gets an answer from. -/
def LevelZeroOnly {α : Type} (m : Exec α) : Prop := ∀ s a t, s.cpl ≠ 0 → m s ≠ .ok (a, t)

section
variable {α β : Type}

theorem levelZeroOnly_requirePrivilege : LevelZeroOnly requirePrivilege := by
  intro s a t hcpl h
  rw [requirePrivilege_raises hcpl] at h
  cases h

theorem levelZeroOnly_bind {m : Exec α} {f : α → Exec β} (hm : LevelZeroOnly m) : LevelZeroOnly (m >>= f) := by
  intro s b u hcpl h
  obtain ⟨a, t, hfirst, -⟩ := exec_bind_ok h
  exact hm s a t hcpl hfirst

theorem stateKept_frame : IsFrame (fun s t : State => t = s) := ⟨fun _ => rfl, fun _ _ _ h1 h2 => h2.trans h1⟩

/-- A check before it changes nothing. -/
theorem levelZeroOnly_after {m : Exec α} {f : α → Exec β} (hm : Keeps (fun s t => t = s) m) (hf : ∀ a, LevelZeroOnly (f a)) :
    LevelZeroOnly (m >>= f) := by
  intro s b u hcpl h
  obtain ⟨a, t, hfirst, hrest⟩ := exec_bind_ok h
  obtain rfl := hm s a t hfirst
  exact hf a t b u hcpl hrest

end

theorem levelZeroOnly_checkDebugAccess (n : BitVec 3) : LevelZeroOnly (checkDebugAccess n) :=
  levelZeroOnly_after (keeps_get stateKept_frame) fun _ => levelZeroOnly_after (keeps_raiseIf stateKept_frame _ _) fun _ =>
    levelZeroOnly_bind levelZeroOnly_requirePrivilege

theorem levelZeroOnly_requireMsrAccess (present : Bool) : LevelZeroOnly (requireMsrAccess present) :=
  levelZeroOnly_after (keeps_get stateKept_frame) fun _ => levelZeroOnly_after (keeps_raiseIf stateKept_frame _ _) fun _ =>
    levelZeroOnly_after (keeps_refuseIf stateKept_frame _ _) fun _ => levelZeroOnly_bind levelZeroOnly_requirePrivilege

/-! ### What code above level 0 can do -/

/-- A relation that holds over every update that code above level 0 can make. -/
structure UserClosed (R : State → State → Prop) : Prop extends RaiseClosed R, ReturnClosed R where
  gprs : ∀ s g, R s { s with gpr := g }
  activity : ∀ s a, R s { s with activity := a }
  goOn : ∀ s eip, R s (s.jumpTo eip (clearRf s.eflags))

section
variable {R : State → State → Prop} (h : UserClosed R)
include h

theorem UserClosed.stepped (s : State) (b : Bool) : R s (s.stepped b) := h.pending s _

/-- At another level a level-0 instruction does no more than raise its exception. -/
theorem keepsFrom_runInstr_of_levelZeroOnly (i : Instr) {body : Exec Unit} (hb : LevelZeroOnly body) {s : State} (hcpl : s.cpl ≠ 0) :
    KeepsFrom R s (runInstr i body s) :=
  keepsFrom_runInstr h.toRaiseClosed i body s fun t ht => absurd ht (hb s () t hcpl)

theorem UserClosed.keepsFrom_runInstr (i : Instr) {body : Exec Unit} (hb : Keeps R body) (s : State) :
    KeepsFrom R s (runInstr i body s) :=
  Machine.keepsFrom_runInstr h.toRaiseClosed i body s fun t ht => h.frame.trans _ _ _ (hb s _ t ht)
    (h.frame.trans _ _ _ (h.goOn t _) (h.stepped _ s.tf))

theorem UserClosed.keepsFrom_runTransfer (i : Instr) {body : Exec Unit} (hb : Keeps R body) (s : State) :
    KeepsFrom R s (runTransfer i body s) :=
  Machine.keepsFrom_runTransfer h.toRaiseClosed i body s fun t ht => h.frame.trans _ _ _ (hb s _ t ht) (h.stepped t _)

theorem UserClosed.keepsFrom_settle_error (s : State) (e : Stop) : KeepsFrom R s (settle s (.error e)) := by
  cases e with
  | exc e => exact keepsFrom_takeException h.toRaiseClosed e s
  | refused r => exact keepsFrom_refused s r

theorem UserClosed.keeps_writeRm16 (p : List Prefix) (v : Word16) (o : RmOp) : Keeps R (writeRm16 p v o) :=
  Machine.keeps_writeRm16 h.toOperandClosed (fun s _ _ => h.gprs s _) p v o

/-! ### The far CALL above level 0 (44 R301) -/

theorem UserClosed.keepsIf_callTask (sel : Word16) (d : SegCache) (next : Word32) : KeepsIf Protected R (callTask sel d next) :=
  keepsIf_bind h.frame (keepsIf_protected (keeps_get h.toMmuClosed.andCr0.frame)) fun _ =>
    keepsIf_taskSwitch h.toTaskClosed _ _ _ _ _ _

/-- The checks before the switch are memory accesses at most. -/
theorem UserClosed.keepsIf_callProtected (sel : Word16) (next : Word32) : KeepsIf Protected R (callProtected sel next) := by
  have hm := h.toMmuClosed.andCr0
  have after {α : Type} {m : Exec α} {f : α → Exec Unit} (hm : Keeps (fun s t => R s t ∧ t.cr0 = s.cr0) m)
      (hf : ∀ a, KeepsIf Protected R (f a)) : KeepsIf Protected R (m >>= f) := keepsIf_bind h.frame (keepsIf_protected hm) hf
  have check {c : Bool} {e : Exn} {f : Exec Unit} (hf : KeepsIf Protected R f) :
      KeepsIf Protected R (raiseIf c e >>= fun _ => f) := after (keeps_raiseIf hm.frame _ _) fun _ => hf
  refine check <| after (keeps_readDescriptor hm _ _) fun d => after (keeps_get hm.frame) fun s => ?_
  refine keepsIf_ite (check <| keepsIf_ite ?gate ?tss) (keepsIf_of_keeps (keeps_ite (keeps_refuse _) (keeps_raise _)))
  case gate => exact check <| after (keeps_findTss hm _ _ _ _) fun d' => h.keepsIf_callTask _ d' next
  case tss => exact check <| check <| h.keepsIf_callTask sel d next

theorem UserClosed.keeps_callReal (z : OpSize) (sel : Word16) (off next : Word32) : Keeps R (callReal z sel off next) := by
  have hpush := keeps_push h.toEntryClosed h.toOperandClosed z
  refine keeps_bind h.frame (keeps_get h.frame) fun s => keeps_bind h.frame (hpush _) fun _ => keeps_bind h.frame (hpush _) fun _ => ?_
  exact keeps_modify fun t => h.frame.trans _ _ _ (h.loadReal t .cs sel) (h.goOn (t.loadReal .cs sel) off)

theorem UserClosed.keeps_callFar (z : OpSize) (sel : Word16) (off next : Word32) : Keeps R (callFar z sel off next) := by
  refine keeps_get_bind fun s a t ht => ?_
  split at ht
  · next hp => exact h.keepsIf_callProtected sel next s a t (State.pe_of_prot hp) ht
  · exact h.keeps_callReal z sel off next s a t ht

/-! ### Every instruction above level 0 -/

theorem UserClosed.keepsFrom_execInt3 (p : List Prefix) (s : State) : KeepsFrom R s (execInt3 p s) := by
  unfold execInt3
  rw [exec_run]
  split
  · next t ht =>
    exact keepsFrom_trans h.frame (keeps_checkPrefixes h.frame p s _ t ht) (keepsFrom_takeTrap h.toRaiseClosed h.stepped _ t)
  · exact h.keepsFrom_settle_error s _

theorem UserClosed.keepsFrom_execWait (p : List Prefix) (s : State) : KeepsFrom R s (execWait p s) := by
  unfold execWait
  split
  · exact h.keepsFrom_settle_error s _
  split
  · exact h.keepsFrom_runInstr _ (keeps_pure h.frame ()) s
  · exact keepsFrom_takeException h.toRaiseClosed _ s
  · exact keepsFrom_next (h.activity s .waiting)

theorem UserClosed.keepsFrom_execEsc (p : List Prefix) (x g : BitVec 3) (o : RmOp) (s : State) :
    KeepsFrom R s (execEsc p x g o s) := by
  unfold execEsc
  split
  · exact h.keepsFrom_settle_error s _
  split
  · exact keepsFrom_refused s _
  · exact keepsFrom_takeException h.toRaiseClosed _ s
  · exact keepsFrom_next (h.activity s .waiting)

/-- What an instruction above level 0 can do, with the exception it may take. -/
theorem UserClosed.keepsFrom_exec (i : Instr) {s : State} (hcpl : s.cpl ≠ 0) : KeepsFrom R s (exec i s) := by
  have hf := h.frame
  have check {c : Bool} {e : Exn} {m : Exec Unit} (hm : Keeps R m) : Keeps R (raiseIf c e >>= fun _ => m) :=
    keeps_bind hf (keeps_raiseIf hf _ _) fun _ => hm
  have levelZero {i : Instr} {body : Exec Unit} (hb : LevelZeroOnly body) : KeepsFrom R s (runInstr i body s) :=
    keepsFrom_runInstr_of_levelZeroOnly h i hb hcpl
  have privileged {α : Type} (f : Unit → Exec α) : LevelZeroOnly (requirePrivilege >>= f) :=
    levelZeroOnly_bind levelZeroOnly_requirePrivilege
  cases i with
  | sgdt p o => exact h.keepsFrom_runInstr _ (check (keeps_writeTable h.toOperandClosed p o s.gdtr)) s
  | sidt p o => exact h.keepsFrom_runInstr _ (check (keeps_writeTable h.toOperandClosed p o s.idtr)) s
  | lgdt p o | lidt p o =>
    exact levelZero (levelZeroOnly_after (keeps_raiseIf stateKept_frame _ _) fun _ => privileged _)
  | sldt p o | str p o =>
    exact h.keepsFrom_runInstr _ (keeps_bind hf (keeps_requireProtected hf) fun _ => h.keeps_writeRm16 p _ o) s
  | lldt p o | ltr p o =>
    exact levelZero (levelZeroOnly_after (keeps_requireProtected stateKept_frame) fun _ => privileged _)
  | movFromCr p mod n r | movToCr p mod n r =>
    exact levelZero (levelZeroOnly_after (keeps_raiseIf stateKept_frame _ _) fun _ => privileged _)
  | smsw p o => exact h.keepsFrom_runInstr _ (h.keeps_writeRm16 p _ o) s
  | lmsw p o | clts p => exact levelZero (privileged _)
  | movFromDr p mod n r | movToDr p mod n r => exact levelZero (levelZeroOnly_bind (levelZeroOnly_checkDebugAccess n))
  | movFromTr p mod n r | movToTr p mod n r =>
    exact levelZero (levelZeroOnly_after (keeps_refuseIf stateKept_frame _ _) fun _ => privileged _)
  | int3 p => exact h.keepsFrom_execInt3 p s
  | wrmsr p | rdmsr p => exact levelZero (levelZeroOnly_bind (levelZeroOnly_requireMsrAccess _))
  | rdtsc p => exact h.keepsFrom_runInstr _ (check <| check <| keeps_modify fun t => h.gprs t _) s
  | rdpmc p => exact h.keepsFrom_runInstr _ (check <| check <| check <| keeps_modify fun t => h.gprs t _) s
  | cpuid p =>
    exact h.keepsFrom_runInstr _ (check <| keeps_bind hf (keeps_refuseIf hf _ _) fun _ => keeps_modify fun t => h.gprs t _) s
  | callPtr p f => exact h.keepsFrom_runTransfer _ (h.keeps_callFar _ _ _ _) s
  | callMem p o =>
    exact h.keepsFrom_runTransfer _ (check <| keeps_bind hf (keeps_readFar h.toOperandClosed p o) fun x =>
      h.keeps_callFar _ x.2 x.1 _) s
  | iret p => exact h.keepsFrom_runTransfer _ (keeps_returnFromException h.toReturnClosed _ _) s
  | wait p => exact h.keepsFrom_execWait p s
  | esc p x g o => exact h.keepsFrom_execEsc p x g o s

end

/-! ### The system registers (60 R377) -/

/-- The registers that code above level 0 leaves as they are. -/
def State.systemRegisters (s : State) :=
  (s.gdtr, s.idtr, s.cr4, s.dr0, s.dr1, s.dr2, s.dr3, s.tr6, s.tr7, s.msr)

/-- `b` is `a` with some bits of `mask` cleared. -/
structure Cleared (mask a b : Word32) : Prop where
  rest : a &&& ~~~ mask = b &&& ~~~ mask
  sub : b &&& a = b

theorem cleared_refl (mask a : Word32) : Cleared mask a a := ⟨rfl, BitVec.and_self⟩

theorem cleared_trans {mask a b c : Word32} (h1 : Cleared mask a b) (h2 : Cleared mask b c) : Cleared mask a c where
  rest := h1.rest.trans h2.rest
  sub := by rw [← h2.sub, BitVec.and_assoc, h1.sub]

/-- Bits outside of the mask stay when a part of it is cleared. -/
theorem cleared_and_not {mask m : Word32} (h : ~~~ m &&& ~~~ mask = ~~~ mask) (a : Word32) : Cleared mask a (a &&& ~~~ m) where
  rest := by rw [BitVec.and_assoc, h]
  sub := by rw [BitVec.and_comm, ← BitVec.and_assoc, BitVec.and_self]

/-- What code above level 0 leaves of the system registers: a task switch may set TS and clear the local enables of DR7, the entry to
the handler of #DB clears GD. -/
structure UserKept (s t : State) : Prop where
  registers : t.systemRegisters = s.systemRegisters
  cr0 : t.cr0 = s.cr0 ∨ t.cr0 = setBit s.cr0 3 true
  dr7 : Cleared 0x00002055 s.dr7 t.dr7

theorem userKept_of_eq {s t : State} (hregs : t.systemRegisters = s.systemRegisters) (h0 : t.cr0 = s.cr0) (h7 : t.dr7 = s.dr7) :
    UserKept s t := ⟨hregs, .inl h0, h7 ▸ cleared_refl _ _⟩

theorem setBit_true_idem {w : Nat} (v : BitVec w) (i : Nat) : setBit (setBit v i true) i true = setBit v i true := by
  simp only [setBit, if_true, BitVec.or_assoc, BitVec.or_self]

theorem userKept_frame : IsFrame UserKept where
  refl _ := userKept_of_eq rfl rfl rfl
  trans s t u h1 h2 := by
    refine ⟨h2.registers.trans h1.registers, ?_, cleared_trans h1.dr7 h2.dr7⟩
    obtain e1 | e1 := h1.cr0 <;> obtain e2 | e2 := h2.cr0 <;> rw [e2, e1]
    · exact .inl rfl
    · exact .inr rfl
    · exact .inr rfl
    · exact .inr (setBit_true_idem _ _)

theorem userKept_raised (s : State) (e : Exn) : UserKept s (s.raised e) := by
  cases e <;> exact userKept_of_eq rfl rfl rfl

theorem userKept_enterTask (s : State) (g : SegState) (kind : SwitchKind) (c : TaskContext) :
    UserKept s (({ s with tr := g } : State).enterTask kind c) :=
  ⟨rfl, .inr rfl, cleared_and_not (by decide) s.dr7⟩

theorem userKept_userClosed : UserClosed UserKept where
  frame := userKept_frame
  store _ _ _ := by rw [storeBytes_eq]; exact userKept_of_eq rfl rfl rfl
  tlb _ _ _ := userKept_of_eq rfl rfl rfl
  draws _ _ := userKept_of_eq rfl rfl rfl
  pending _ _ := userKept_of_eq rfl rfl rfl
  esp _ _ := userKept_of_eq rfl rfl rfl
  segs _ _ := userKept_of_eq rfl rfl rfl
  level _ _ := userKept_of_eq rfl rfl rfl
  jump _ _ _ := userKept_of_eq rfl rfl rfl
  jumpReal _ _ := userKept_of_eq rfl rfl rfl
  guard s := ⟨rfl, .inl rfl, cleared_and_not (m := BitVec.ofNat 32 (2 ^ 13)) (by decide) s.dr7⟩
  ldtr _ _ := userKept_of_eq rfl rfl rfl
  cpl _ _ := userKept_of_eq rfl rfl rfl
  task s g kind c _ := userKept_enterTask s g kind c
  setEip _ := userKept_of_eq rfl rfl rfl
  raised := userKept_raised
  down _ := userKept_of_eq rfl rfl rfl
  iret _ _ _ _ _ h := ⟨h.registers, h.cr0, h.dr7⟩
  iretVirtual _ _ _ _ h := ⟨h.registers, h.cr0, h.dr7⟩
  unblock _ := userKept_of_eq rfl rfl rfl
  gprs _ _ := userKept_of_eq rfl rfl rfl
  activity _ _ := userKept_of_eq rfl rfl rfl
  goOn _ _ := userKept_of_eq rfl rfl rfl

/-- Settles O18: at another level a level-0 instruction does no more than raise #GP, and every update of the others keeps the system
registers. -/
theorem userCodeKeepsSystemRegisters : Obligations.UserCodeKeepsSystemRegisters := by
  intro i s t hcpl hexec
  obtain ⟨hregs, hcr0, hdr7⟩ := userKept_userClosed.keepsFrom_exec i hcpl t hexec
  simp only [State.systemRegisters, Prod.mk.injEq] at hregs
  obtain ⟨hgdtr, hidtr, hcr4, hdr0, hdr1, hdr2, hdr3, htr6, htr7, hmsr⟩ := hregs
  exact ⟨hgdtr, hidtr, hcr4, hdr0, hdr1, hdr2, hdr3, htr6, htr7, hmsr, hcr0, hdr7.rest, hdr7.sub⟩

end Sys2Proof.Machine
end

section
/-! PROOFS. The level-0 instructions at another level (60_exceptions.md R377; 40 R221; 41 R242; 42 R263; 43 R281). -/

namespace Sys2Proof.Machine

/-! ### The checks before the level (40 R221; 41 R242; 42 R263; 43 R281) -/

theorem pe_of_cpl {s : State} (h : s.cpl ≠ 0) : s.pe = true := by
  by_contra hpe
  rw [Bool.not_eq_true] at hpe
  rw [State.cpl, hpe] at h
  exact h rfl

section
variable {s : State} (hcpl : s.cpl ≠ 0)
include hcpl

theorem privilege_raises {α : Type} (f : Unit → Exec α) : (requirePrivilege >>= f) s = .error (.exc (.gp 0)) :=
  exec_bind_of_error (requirePrivilege_raises hcpl)

/-- A level-0 instruction whose first check passes raises #GP(0). -/
theorem runInstr_privilege_raises {i : Instr} {check : Exec Unit} {f : Unit → Exec Unit} (hp : Plain i.prefixes)
    (hcheck : check s = .ok ((), s)) : runInstr i (do check; requirePrivilege >>= f) s = takeException (.gp 0) s :=
  runInstr_raises hp ((exec_bind_of_ok hcheck).trans (privilege_raises hcpl f))

theorem checkDebugAccess_privilege {n : BitVec 3} (h : s.noDebugReg n = false) :
    checkDebugAccess n s = .error (.exc (.gp 0)) := by
  unfold checkDebugAccess
  rw [exec_bind_of_ok (exec_get s), h, exec_bind_of_ok (exec_raiseIf_false _ s), privilege_raises hcpl]

theorem requireMsrAccess_privilege {present : Bool} (h : present = true) :
    requireMsrAccess present s = .error (.exc (.gp 0)) := by
  unfold requireMsrAccess
  rw [exec_bind_of_ok (exec_get s), h, pe_of_cpl hcpl, Bool.not_true, exec_bind_of_ok (exec_raiseIf_false _ s),
    exec_bind_of_ok (exec_refuseIf_false _ s), privilege_raises hcpl]

end

/-- Settles O34: at another level the check of the level is the first one that fails. -/
theorem privilegedForms : Obligations.PrivilegedForms := by
  intro p o m n r s hp hcpl
  have passes {c : Bool} {e : Exn} (hc : c = false) : raiseIf c e s = .ok ((), s) := by rw [hc, exec_raiseIf_false]
  refine ⟨runInstr_raises (i := .clts p) hp (privilege_raises hcpl _), runInstr_raises (i := .lmsw p o) hp (privilege_raises hcpl _),
    fun ho => ?tables, fun hvm => ?selectors, fun hn => ?control, fun hn => ?debug, fun hn => ?test, fun hpart => ?rdmsr,
    fun hpart => ?wrmsr⟩
  case tables =>
    exact ⟨runInstr_privilege_raises hcpl (i := .lgdt p o) hp (passes ho), runInstr_privilege_raises hcpl (i := .lidt p o) hp (passes ho)⟩
  case selectors =>
    have hcheck : requireProtected s = .ok ((), s) := by
      rw [requireProtected, exec_bind_of_ok (exec_get s), prot_iff.mpr ⟨pe_of_cpl hcpl, hvm⟩]
      rfl
    exact ⟨runInstr_privilege_raises hcpl (i := .lldt p o) hp hcheck, runInstr_privilege_raises hcpl (i := .ltr p o) hp hcheck⟩
  case control =>
    have hcr : (!s.hasCr n) = false := by rw [hn]; rfl
    exact ⟨runInstr_privilege_raises hcpl (i := .movFromCr p m n r) hp (passes hcr),
      runInstr_privilege_raises hcpl (i := .movToCr p m n r) hp (passes hcr)⟩
  case debug =>
    have hcheck := checkDebugAccess_privilege hcpl hn
    exact ⟨runInstr_raises (i := .movFromDr p m n r) hp (exec_bind_of_error hcheck),
      runInstr_raises (i := .movToDr p m n r) hp (exec_bind_of_error hcheck)⟩
  case test =>
    have hcheck : refuseIf (noTestReg n) .noTestRegister s = .ok ((), s) := by
      obtain rfl | rfl := hn <;> rfl
    exact ⟨runInstr_privilege_raises hcpl (i := .movFromTr p m n r) hp hcheck,
      runInstr_privilege_raises hcpl (i := .movToTr p m n r) hp hcheck⟩
  case rdmsr => exact runInstr_raises (i := .rdmsr p) hp (exec_bind_of_error (requireMsrAccess_privilege hcpl hpart))
  case wrmsr => exact runInstr_raises (i := .wrmsr p) hp (exec_bind_of_error (requireMsrAccess_privilege hcpl hpart))

end Sys2Proof.Machine
end

section
/-! PROOFS. An exception as an event, and the entry to a handler in Real Mode (60_exceptions.md R320, R326, R332, R336, R355, R358). -/

namespace Sys2Proof.Machine

/-! ### Attempts (R354, R360) -/

section
variable {ev : Event} {s t : State}

theorem attempt_of_none (h : deliver ev s = .ok (none, t)) : attempt ev s = .done t := by
  unfold attempt
  rw [exec_run, h]
  rfl

/-- An error code that is left over is pushed with 32 bits. -/
theorem attempt_of_some {k : Word32} {v : State} (h : deliver ev s = .ok (some k, t)) (hpush : pushFrame .s32 k t = .ok ((), v)) :
    attempt ev s = .done v := by
  have hcode : pushCode .s32 (some k) t = .ok ((), v) := hpush
  unfold attempt
  rw [exec_run, h]
  dsimp only
  rw [exec_run, hcode]

theorem attempt_of_error {e : Exn} (h : deliver ev s = .error (.exc e)) : attempt ev s = .faulted e s := by
  unfold attempt
  rw [exec_run, h]

/-- An attempt that succeeds ends the delivery. -/
theorem deliverFrom_of_done {n : Nat} {c : FaultClass} (h : attempt ev s = .done t) : deliverFrom (n + 1) c ev s = .next t := by
  unfold deliverFrom
  rw [h]

theorem takeEvent_of_done (h : attempt ev s = .done t) : takeEvent ev s = .next t := deliverFrom_of_done h

theorem takeException_of_done {e : Exn} (h : attempt (e.event (s.raised e)) (s.raised e) = .done t) :
    takeException e s = .next t := deliverFrom_of_done h

end

/-! ### An exception as an event (R320, R326, R332, R336) -/

/-- Raising an exception writes CR2 or DR6 and no more. -/
theorem raised_eq (s : State) (e : Exn) : s.raised e = { s with
    cr2 := (s.raised e).cr2, dr6 := (s.raised e).dr6, draws := (s.raised e).draws } := by
  cases e <;> rfl

theorem realReady_raised {s : State} {e : Exn} {v : Byte} (h : s.realReady v) : (s.raised e).realReady v := by
  rw [raised_eq]
  exact h

/-- Settles O58: delivery in Real Mode is `deliver_real`, and in every mode an attempt that succeeds ends the delivery. -/
theorem realModeEntry : Obligations.RealModeEntry := by
  refine ⟨fun ev s hready hwf => ?event, fun e s hready hwf => ?exception, fun e s t c => ?row⟩
  case event =>
    exact ⟨_, takeEvent_of_done (attempt_of_none (deliver_real hready)), realEntry_inRealHandler hready hwf⟩
  case exception =>
    have hready' : (s.raised e).realReady (e.event (s.raised e)).vector := realReady_raised hready
    have hwf' : Memory.wf (s.raised e).mem = true := by rw [raised_eq]; exact hwf
    have heip : (e.event (s.raised e)).eip = s.eip := by rw [raised_eq]; rfl
    have hentry := realEntry_inRealHandler hready' hwf'
    rw [heip] at hentry
    exact ⟨_, takeException_of_done (attempt_of_none (deliver_real hready')), hentry⟩
  case row =>
    intro row u ev hdeliver
    have hu : s.raised e = u := by cases e <;> rfl
    have hev : e.event (s.raised e) = ev := by cases e <;> rfl
    have both {v : State} (h : attempt ev u = .done v) : takeException e s = .next v ∧ takeEvent ev u = .next v :=
      ⟨takeException_of_done (by rw [hev, hu, h]), takeEvent_of_done h⟩
    refine ⟨fun hc => both (attempt_of_none (hc ▸ hdeliver)), fun k v hc hpush => both (attempt_of_some (hc ▸ hdeliver) hpush)⟩

end Sys2Proof.Machine
end

section
/-! PROOFS. The events between two instructions (60_exceptions.md R329, R346, R351, R353; 44_task_and_coprocessor_instructions.md R309). -/

namespace Sys2Proof.Machine

/-! ### The step between two instructions (R353) -/

section
variable {s : State}

theorem step_of_alive (hreset : s.env.reset = false) (hact : s.activity ≠ .shutdown) : step s = ticked (alive s) := by
  unfold step cycle
  rw [hreset, if_neg Bool.false_ne_true, if_neg hact]

theorem step_of_shutdown (hreset : s.env.reset = false) (hact : s.activity = .shutdown) : step s = ticked (shutDownStep s) := by
  unfold step cycle
  rw [hreset, if_neg Bool.false_ne_true, if_pos hact]

theorem alive_of_none (h : s.env.machineCheck = none) : alive s = boundary s := by
  unfold alive
  rw [h]

theorem alive_of_machineCheck {m : MachineCheck} (h : s.env.machineCheck = some m) :
    alive s = if s.mce then takeMachineCheck (s.loadMachineCheck m) else boundary (s.loadMachineCheck m) := by
  unfold alive
  rw [h]

theorem boundary_of_pending (h : s.pending.raises = true) : boundary s = takePending s := by
  unfold boundary
  rw [h, if_pos rfl]

theorem nmiReady_iff : s.nmiReady = true ↔ s.env.nmi = true ∧ s.nmiBlocked = false := by
  rw [State.nmiReady, Bool.and_eq_true, Bool.not_eq_true']

theorem nmiReady_false_iff : s.nmiReady = false ↔ s.env.nmi = false ∨ s.nmiBlocked = true := by
  rw [State.nmiReady, Bool.and_eq_false_iff, Bool.not_eq_false']

theorem boundary_of_nmi (hpending : s.pending.raises = false) (h : s.nmiReady = true) : boundary s = takeNmi s := by
  unfold boundary
  rw [hpending, if_neg Bool.false_ne_true, h, if_pos rfl]

theorem intrReady_of_if {v : Byte} (h : s.env.intr = some v) (hif : bit s.eflags 9 = true) : s.intrReady = some v := by
  have hifl : s.ifl = true := hif
  rw [State.intrReady, hifl, if_pos rfl, h]

theorem intrReady_none (h : s.env.intr = none ∨ bit s.eflags 9 = false) : s.intrReady = none := by
  unfold State.intrReady State.ifl
  obtain h | h := h
  · rw [h, ite_self]
  · rw [h, if_neg Bool.false_ne_true]

variable (hpending : s.pending.raises = false) (hnmi : s.nmiReady = false)
include hpending hnmi

theorem boundary_of_intr {v : Byte} (h : s.intrReady = some v) : boundary s = takeIntr s v := by
  unfold boundary
  rw [hpending, if_neg Bool.false_ne_true, hnmi, if_neg Bool.false_ne_true, h]

theorem boundary_of_quiet (h : s.intrReady = none) :
    boundary s = if s.activity = .waiting then .next s else runNext s.beginNext := by
  unfold boundary
  rw [hpending, if_neg Bool.false_ne_true, hnmi, if_neg Bool.false_ne_true, h]
  rfl

end

/-! ### What a pending trap leaves in DR6 (R332, R334, R335) -/

section
variable (s : State)

theorem bit_pendingFlags_bs (h : s.pending.singleStep = true) : bit s.pendingFlags 14 = true := by
  rw [State.pendingFlags, bit_or, bit_or, h]
  exact Bool.or_eq_true_iff.mpr (.inl (Bool.or_eq_true_iff.mpr (.inr rfl)))

theorem bit_pendingFlags_bt (h : s.pending.taskSwitch = true) : bit s.pendingFlags 15 = true := by
  rw [State.pendingFlags, bit_or, h]
  exact Bool.or_eq_true_iff.mpr (.inr rfl)

theorem bit_pendingFlags_hit {n : Nat} (hn : n < 4) (h : bit s.pending.hits n = true) : bit s.pendingFlags n = true := by
  rw [State.pendingFlags, bit_or, bit_or, bit_bFlags _ _ _ hn, h]
  rfl

theorem bit_reportPending {n : Nat} (h : bit s.pendingFlags n = true) : bit s.reportPending.dr6 n = true :=
  (bit_or ..).trans (Bool.or_eq_true_iff.mpr (.inr h))

end

/-- Settles O8: the events stand in the order of the branches of `alive` and `boundary`. -/
theorem eventsBetweenInstructions : Obligations.EventsBetweenInstructions := by
  intro s hreset hact
  have hstep : step s = ticked (alive s) := step_of_alive hreset hact
  refine ⟨fun t => ⟨rfl, ⟨rfl⟩⟩, fun m hm => ?machineCheck, fun hnone => ?events⟩
  case machineCheck =>
    intro u
    rw [alive_of_machineCheck hm] at hstep
    refine ⟨fun hmce => ?_, fun hmce => ?_⟩
    · have hon : s.mce = true := hmce
      rw [hstep, hon]
      rfl
    · have hoff : s.mce = false := hmce
      have hu : step u = ticked (boundary u) := (step_of_alive (s := u) hreset hact).trans (congrArg ticked (alive_of_none (s := u) rfl))
      rw [hstep, hoff, hu]
      rfl
  case events =>
    rw [alive_of_none hnone] at hstep
    refine ⟨fun hpending => ?trap, fun hpending hnmi hfree => ?nmi, fun hpending hno => ?later⟩
    case trap =>
      refine ⟨s.reportPending, hstep.trans (congrArg ticked (boundary_of_pending hpending)), rfl, dr6Grows_or s _,
        fun h => bit_reportPending s (bit_pendingFlags_bs s h), fun h => bit_reportPending s (bit_pendingFlags_bt s h),
        fun n hn h => bit_reportPending s (bit_pendingFlags_hit s hn h)⟩
    case nmi => exact hstep.trans (congrArg ticked (boundary_of_nmi hpending (nmiReady_iff.mpr ⟨hnmi, hfree⟩)))
    case later =>
      have hnmi : s.nmiReady = false := nmiReady_false_iff.mpr hno
      refine ⟨fun v hv hif => hstep.trans (congrArg ticked (boundary_of_intr hpending hnmi (intrReady_of_if hv hif))), fun hquiet => ?_⟩
      rw [boundary_of_quiet hpending hnmi (intrReady_none hquiet)] at hstep
      refine ⟨fun hwait => ?_, fun hrun => ?_⟩
      · rw [hstep, if_pos hwait]
        rfl
      · have hno : s.activity ≠ .waiting := ne_of_eq_of_ne hrun (by decide)
        rw [hstep, if_neg hno]

end Sys2Proof.Machine
end

section
/-! PROOFS. Deliveries that fault: what they raise, the double fault, shutdown and reset (60_exceptions.md R354, R355, R363;
70_reset_and_hazards.md R390). -/

namespace Sys2Proof.Machine

/-! ### Which exceptions a computation raises -/

/-- Every exception that `m` raises satisfies `P`. -/
def Raises {α : Type} (P : Exn → Prop) (m : Exec α) : Prop := ∀ s e, m s = .error (.exc e) → P e

section
variable {α β : Type} {P : Exn → Prop}

theorem raises_of_ok {m : Exec α} (h : ∀ s, ∃ a t, m s = .ok (a, t)) : Raises P m := by
  intro s e he
  obtain ⟨a, t, ht⟩ := h s
  rw [ht] at he
  cases he

theorem raises_pure (a : α) : Raises P (pure a : Exec α) := raises_of_ok fun s => ⟨a, s, rfl⟩
theorem raises_get : Raises P (get : Exec State) := raises_of_ok fun s => ⟨s, s, rfl⟩
theorem raises_set (t : State) : Raises P (set t : Exec Unit) := raises_of_ok fun _ => ⟨(), t, rfl⟩
theorem raises_modify (f : State → State) : Raises P (modify f : Exec Unit) := raises_of_ok fun s => ⟨(), f s, rfl⟩
theorem raises_draw : Raises P draw := raises_of_ok fun s => ⟨s.draws, _, rfl⟩

theorem raises_refuse (r : Refusal) : Raises P (refuse r : Exec α) := by
  intro s e he
  cases he

theorem raises_raise {x : Exn} (hx : P x) : Raises P (raise x : Exec α) := by
  intro s e he
  cases he
  exact hx

theorem raises_ite {c : Prop} [Decidable c] {m n : Exec α} (hm : Raises P m) (hn : Raises P n) : Raises P (if c then m else n) := by
  split
  · exact hm
  · exact hn

theorem raises_raiseIf {x : Exn} (hx : P x) (c : Bool) : Raises P (raiseIf c x) := raises_ite (raises_raise hx) (raises_pure ())
theorem raises_refuseIf (c : Bool) (r : Refusal) : Raises P (refuseIf c r) := raises_ite (raises_refuse r) (raises_pure ())
theorem raises_onlyIf (c : Bool) {m : Exec Unit} (hm : Raises P m) : Raises P (onlyIf c m) := raises_ite hm (raises_pure ())

theorem raises_bind {m : Exec α} {f : α → Exec β} (hm : Raises P m) (hf : ∀ a, Raises P (f a)) : Raises P (m >>= f) := by
  intro s e he
  rw [exec_bind] at he
  split at he
  · next a t _ => exact hf a t e he
  · next x hx => cases he; exact hm s e hx

/-- A fault in the middle of a task switch is refused. -/
theorem raises_refuseFaults (m : Exec α) : Raises P (refuseFaults m) := by
  intro s e he
  unfold refuseFaults at he
  split at he
  · cases he
  · next hno => exact absurd he (hno e)

end

/-! ### What a delivery raises (R326 to R328) -/

/-- The classes of the exceptions that a delivery meets (R363). -/
def Exn.Faults (e : Exn) : Prop := e.faultClass = .contributory ∨ e.faultClass = .page

theorem faults_pf (lin code : Word32) : (Exn.pf lin code).Faults := .inr rfl
theorem faults_gp (code : Word32) : (Exn.gp code).Faults := .inl rfl
theorem faults_np (code : Word32) : (Exn.np code).Faults := .inl rfl
theorem faults_ss (code : Word32) : (Exn.ss code).Faults := .inl rfl
theorem faults_ts (code : Word32) : (Exn.ts code).Faults := .inl rfl

theorem raises_walk (acc : Access) (lin : Word32) : Raises Exn.Faults (walk acc lin) := by
  have check (c : Bool) (code : Word32) : Raises Exn.Faults (raiseIf c (.pf lin code)) := raises_raiseIf (faults_pf lin code) c
  refine raises_bind raises_get fun s => raises_bind (raises_refuseIf _ _) fun _ => raises_bind (check _ _) fun _ => raises_ite ?_ ?_
  · exact raises_bind (check _ _) fun _ => raises_bind (check _ _) fun _ => raises_bind (raises_set _) fun _ => raises_pure _
  · exact raises_bind (raises_refuseIf _ _) fun _ => raises_bind (check _ _) fun _ => raises_bind (check _ _) fun _ =>
      raises_bind (raises_set _) fun _ => raises_pure _

theorem raises_fillTlb (page : BitVec 20) (e : TlbEntry) : Raises Exn.Faults (fillTlb page e) := by
  refine raises_bind raises_draw fun k => raises_bind (raises_modify _) fun _ => ?_
  split
  · exact raises_modify _
  · exact raises_pure ()

theorem raises_translate (acc : Access) (lin : Word32) : Raises Exn.Faults (translate acc lin) := by
  refine raises_bind raises_get fun s => raises_ite (raises_pure _) ?_
  split
  · exact raises_bind (raises_walk acc lin) fun e => raises_bind (raises_fillTlb _ e) fun _ => raises_pure _
  · refine raises_bind (raises_raiseIf (faults_pf _ _) _) fun _ => raises_ite ?_ (raises_pure _)
    exact raises_bind (raises_walk acc lin) fun e => raises_bind (raises_modify _) fun _ => raises_pure _
  · exact raises_refuse _

theorem raises_nextByte (acc : Access) (prev : Option Word32) (lin : Word32) : Raises Exn.Faults (nextByte acc prev lin) := by
  cases prev with
  | none => exact raises_translate acc lin
  | some p => exact raises_ite (raises_translate acc lin) (raises_pure _)

theorem raises_translateFrom (acc : Access) (n : Nat) (prev : Option Word32) (lin : Word32) :
    Raises Exn.Faults (translateFrom acc n prev lin) := by
  induction n generalizing prev lin with
  | zero => exact raises_pure _
  | succ n ih => exact raises_bind (raises_nextByte acc prev lin) fun _ => raises_bind (ih _ _) fun _ => raises_pure _

theorem raises_translateRange (acc : Access) (lin : Word32) (n : Nat) : Raises Exn.Faults (translateRange acc lin n) :=
  raises_bind (raises_translateFrom acc n none lin) fun _ => raises_bind raises_get fun _ =>
    raises_bind (raises_refuseIf _ _) fun _ => raises_pure _

theorem raises_memWrite (acc : Access) (lin : Word32) (n v : Nat) : Raises Exn.Faults (memWrite acc lin n v) :=
  raises_bind (raises_translateRange acc lin n) fun _ => raises_modify _

theorem raises_sysRead (lin : Word32) (n : Nat) : Raises Exn.Faults (sysRead lin n) :=
  raises_bind (raises_translateRange .sysRead lin n) fun _ => raises_bind raises_get fun _ => raises_pure _

theorem raises_readDescriptor (sel : Word16) {bad : Exn} (hbad : bad.Faults) : Raises Exn.Faults (readDescriptor sel bad) :=
  raises_bind raises_get fun _ => raises_bind (raises_raiseIf hbad _) fun _ => raises_bind (raises_sysRead _ _) fun _ => raises_pure _

theorem raises_loadSeg (r : SegReg) (sel : Word16) (c : SegCache) : Raises Exn.Faults (loadSeg r sel c) := by
  refine raises_bind (raises_onlyIf _ ?_) fun _ => raises_modify _
  exact raises_bind raises_get fun _ => raises_bind (raises_sysRead _ _) fun _ => raises_memWrite _ _ _ _

theorem raises_pushFrame (z : OpSize) (v : Word32) : Raises Exn.Faults (pushFrame z v) :=
  raises_bind raises_get fun _ => raises_bind (raises_raiseIf (faults_ss 0) _) fun _ =>
    raises_bind (raises_memWrite _ _ _ _) fun _ => raises_modify _

theorem raises_pushCode (z : OpSize) (c : Option Word32) : Raises Exn.Faults (pushCode z c) := by
  cases c with
  | none => exact raises_pure ()
  | some c => exact raises_pushFrame z c

theorem raises_tss32 (base off : Word32) : Raises Exn.Faults (tss32 base off) :=
  raises_bind (raises_sysRead _ _) fun _ => raises_pure _

theorem raises_tss16 (base off : Word32) : Raises Exn.Faults (tss16 base off) :=
  raises_bind (raises_sysRead _ _) fun _ => raises_pure _

theorem raises_innerStack (n : BitVec 2) (ext : Word32) : Raises Exn.Faults (innerStack n ext) := by
  have check (c : Bool) (k : Word32) : Raises Exn.Faults (raiseIf c (.ts k)) := raises_raiseIf (faults_ts k) c
  refine raises_bind raises_get fun _ => raises_ite ?_ ?_
  · exact raises_bind raises_get fun _ => raises_bind (check _ _) fun _ => raises_bind (raises_tss16 _ _) fun _ =>
      raises_bind (raises_tss16 _ _) fun _ => raises_pure _
  · exact raises_bind raises_get fun _ => raises_bind (check _ _) fun _ => raises_bind (raises_tss32 _ _) fun _ =>
      raises_bind (raises_tss16 _ _) fun _ => raises_pure _

theorem raises_innerStackSegment (sel : Word16) (n : BitVec 2) (ext : Word32) :
    Raises Exn.Faults (innerStackSegment sel n ext) :=
  raises_bind (raises_raiseIf (faults_gp _) _) fun _ => raises_bind (raises_readDescriptor sel (faults_gp _)) fun _ =>
    raises_bind (raises_raiseIf (faults_gp _) _) fun _ => raises_bind (raises_raiseIf (faults_ss _) _) fun _ => raises_pure _

theorem raises_pushV86Data (z : OpSize) (old : Segs) : Raises Exn.Faults (pushV86Data z old) :=
  raises_bind (raises_pushFrame z _) fun _ => raises_bind (raises_pushFrame z _) fun _ =>
    raises_bind (raises_pushFrame z _) fun _ => raises_bind (raises_pushFrame z _) fun _ => raises_modify _

theorem raises_enterInner (z : OpSize) (n : BitVec 2) (ext : Word32) : Raises Exn.Faults (enterInner z n ext) :=
  raises_bind raises_get fun s => raises_bind (raises_innerStack n ext) fun stack =>
    raises_bind (raises_innerStackSegment stack.1 n ext) fun d => raises_bind (raises_modify _) fun _ =>
    raises_bind (raises_loadSeg .ss stack.1 d) fun _ => raises_bind (raises_modify _) fun _ =>
    raises_bind (raises_onlyIf _ (raises_pushV86Data z s.segs)) fun _ => raises_bind (raises_pushFrame z _) fun _ =>
    raises_pushFrame z _

theorem raises_handlerCode (sel : Word16) (ext : Word32) : Raises Exn.Faults (handlerCode sel ext) :=
  raises_bind raises_get fun _ => raises_bind (raises_raiseIf (faults_gp _) _) fun _ =>
    raises_bind (raises_readDescriptor sel (faults_gp _)) fun _ => raises_bind (raises_raiseIf (faults_gp _) _) fun _ =>
    raises_bind (raises_raiseIf (faults_gp _) _) fun _ => raises_bind (raises_raiseIf (faults_np _) _) fun _ => raises_pure _

theorem raises_deliverGate (ev : Event) (g : Gate) : Raises Exn.Faults (deliverGate ev g) :=
  raises_bind raises_get fun _ => raises_bind (raises_handlerCode _ _) fun d =>
    raises_bind (raises_onlyIf _ (raises_enterInner _ _ _)) fun _ => raises_bind (raises_pushFrame _ _) fun _ =>
    raises_bind (raises_pushFrame _ _) fun _ => raises_bind (raises_pushFrame _ _) fun _ =>
    raises_bind (raises_pushCode _ _) fun _ => raises_bind raises_get fun _ => raises_bind (raises_loadSeg .cs _ d) fun _ =>
    raises_modify _

theorem raises_findTss (sel : Word16) (busy : Bool) {bad : Exn} (hbad : bad.Faults) (ext : Word32) :
    Raises Exn.Faults (findTss sel busy bad ext) :=
  raises_bind (raises_raiseIf hbad _) fun _ => raises_bind (raises_readDescriptor sel hbad) fun _ =>
    raises_bind (raises_raiseIf hbad _) fun _ => raises_bind (raises_raiseIf (faults_np _) _) fun _ => raises_pure _

theorem raises_taskSwitch (sel : Word16) (d : SegCache) (kind : SwitchKind) (eip eflags ext : Word32) :
    Raises Exn.Faults (taskSwitch sel d kind eip eflags ext) :=
  raises_bind raises_get fun _ => raises_bind (raises_raiseIf (faults_ts _) _) fun _ =>
    raises_bind (raises_raiseIf (faults_ts _) _) fun _ => raises_refuseFaults _

theorem raises_deliverTask (ev : Event) (g : Gate) : Raises Exn.Faults (deliverTask ev g) :=
  raises_bind raises_get fun _ => raises_bind (raises_findTss _ _ (faults_gp _) _) fun _ =>
    raises_bind (raises_taskSwitch _ _ _ _ _ _) fun _ => raises_modify _

theorem raises_deliverProtected (ev : Event) : Raises Exn.Faults (deliverProtected ev) :=
  raises_bind raises_get fun _ => raises_bind (raises_raiseIf (faults_gp _) _) fun _ => raises_bind (raises_sysRead _ _) fun _ =>
    raises_bind (raises_raiseIf (faults_gp _) _) fun _ => raises_bind (raises_raiseIf (faults_gp _) _) fun _ =>
    raises_bind (raises_raiseIf (faults_np _) _) fun _ =>
    raises_ite (raises_bind (raises_deliverTask ev _) fun _ => raises_pure _)
      (raises_bind (raises_deliverGate ev _) fun _ => raises_pure _)

theorem raises_deliverReal (ev : Event) : Raises Exn.Faults (deliverReal ev) :=
  raises_bind raises_get fun _ => raises_bind (raises_raiseIf (faults_gp _) _) fun _ => raises_bind (raises_sysRead _ _) fun _ =>
    raises_bind (raises_pushFrame _ _) fun _ => raises_bind (raises_pushFrame _ _) fun _ =>
    raises_bind (raises_pushFrame _ _) fun _ => raises_modify _

/-- A delivery meets contributory exceptions and page faults only. -/
theorem raises_deliver (ev : Event) : Raises Exn.Faults (deliver ev) :=
  raises_bind raises_get fun _ => raises_ite (raises_deliverProtected ev)
    (raises_bind (raises_deliverReal ev) fun _ => raises_pure _)

theorem faults_of_attempt {ev : Event} {e : Exn} {s t : State} (h : attempt ev s = .faulted e t) : e.Faults := by
  unfold attempt at h
  rw [exec_run] at h
  split at h
  · next x hx => cases h; exact raises_deliver ev s e hx
  · cases h
  · next c u _ =>
    rw [exec_run] at h
    split at h
    · cases h
    · next x hx => cases h; exact raises_pushCode _ c _ e hx
    · cases h

/-! ### The chain of deliveries (R363) -/

/-- How many deliveries a chain makes at most that begins with an event of the class. -/
def FaultClass.links : FaultClass → Nat
  | .benign => 4
  | .contributory => 3
  | .page => 2
  | .double => 1

/-- Each fault on the way shortens what may follow. -/
theorem links_lt {c : FaultClass} {e : Exn} (hc : c ≠ .double) (he : e.Faults) :
    FaultClass.links .double < c.links ∧ (doubleFaults c e.faultClass = false → e.faultClass.links < c.links) := by
  unfold Exn.Faults at he
  generalize e.faultClass = f at he
  obtain rfl | rfl := he <;> revert hc <;> cases c <;> decide

/-- A bound on the chain that leaves room for its links is never reached. -/
theorem deliverFrom_succ {n : Nat} {c : FaultClass} (h : c.links ≤ n) (ev : Event) (s : State) :
    deliverFrom (n + 1) c ev s = deliverFrom n c ev s := by
  induction n generalizing c ev s with
  | zero => cases c <;> exact absurd h (by decide)
  | succ n ih =>
    unfold deliverFrom
    cases ha : attempt ev s with
    | done t => rfl
    | refused r => rfl
    | faulted e t =>
      by_cases hc : c = .double
      · simp only [hc, if_true]
      · obtain ⟨hdouble, hother⟩ := links_lt hc (faults_of_attempt ha)
        simp only [hc, if_false]
        cases hd : doubleFaults c e.faultClass with
        | true => exact ih (by omega) _ _
        | false => exact ih (by have := hother hd; omega) _ _

theorem links_le (c : FaultClass) : c.links ≤ 4 := by cases c <;> decide

theorem doubleFaults_iff {c d : FaultClass} : doubleFaults c d = true ↔
    (c = .contributory ∧ d = .contributory) ∨ (c = .page ∧ (d = .contributory ∨ d = .page)) := by
  cases c <;> cases d <;> decide

/-- The exception that takes the place of one whose delivery faults. -/
theorem takeException_of_fault {e f : Exn} {s : State} (hclass : e.faultClass ≠ .double)
    (h : deliver (e.event (s.raised e)) (s.raised e) = .error (.exc f)) : takeException e s
      = if doubleFaults e.faultClass f.faultClass then takeException .df ((s.raised e).raised f) else takeException f (s.raised e) := by
  have hlinks (c : FaultClass) (ev : Event) (u : State) : deliverFrom 4 c ev u = deliverFrom 5 c ev u :=
    (deliverFrom_succ (links_le c) ev u).symm
  rw [takeException, deliverFrom, attempt_of_error h]
  simp only [hclass, if_false, hlinks]
  rfl

/-- A double fault whose delivery faults ends in shutdown. -/
theorem takeException_double {e f : Exn} {s : State} (hclass : e.faultClass = .double)
    (h : deliver (e.event (s.raised e)) (s.raised e) = .error (.exc f)) :
    takeException e s = .next ((s.raised e).raised f).shutDown := by
  rw [takeException, deliverFrom, attempt_of_error h]
  simp only [hclass, if_true]

/-- Where neither the exception's vector nor those of #GP and #DF have an entry in a table with entries of `m` bytes, the processor
shuts down. -/
theorem takeException_shutDown {e : Exn} {s : State} {m r : Nat}
    (hbeyond : ∀ ev : Event, s.idtr.limit.toNat < ev.vector.toNat * m + r → ∃ k, deliver ev (s.raised e) = .error (.exc (.gp k)))
    (he : s.idtr.limit.toNat < e.vector.toNat * m + r) (hdf : s.idtr.limit.toNat < 8 * m + r) :
    takeException e s = .next (s.raised e).shutDown := by
  obtain ⟨k, hk⟩ := hbeyond (e.event (s.raised e)) he
  by_cases hclass : e.faultClass = .double
  · exact takeException_double hclass hk
  have hdf : takeException .df (s.raised e) = .next (s.raised e).shutDown := by
    obtain ⟨j, hj⟩ := hbeyond (Exn.df.event (s.raised e)) hdf
    exact takeException_double (s := s.raised e) rfl hj
  have hgp : takeException (.gp k) (s.raised e) = .next (s.raised e).shutDown := by
    obtain ⟨j, hj⟩ := hbeyond ((Exn.gp k).event (s.raised e)) (by show _ < 13 * m + r; omega)
    exact (takeException_of_fault (e := .gp k) (s := s.raised e) (fun h => by cases h) hj).trans hdf
  rw [takeException_of_fault hclass hk]
  split
  · exact hdf
  · exact hgp

/-! ### A vector outside the table, and its entry (R354, R355) -/

section
variable {ev : Event} {s : State}

theorem deliver_outside_protected (hpe : s.pe = true) (h : s.idtr.limit.toNat < ev.vector.toNat * 8 + 7) :
    deliver ev s = .error (.exc (.gp ev.idtCode)) := by
  unfold deliver deliverProtected
  rw [exec_bind_of_ok (exec_get s), hpe, if_pos rfl, exec_bind_of_ok (exec_get s), decide_eq_true h]
  exact exec_bind_of_error (exec_raiseIf_true _ s)

theorem deliver_outside_real (hpe : s.pe = false) (h : s.idtr.limit.toNat < ev.vector.toNat * 4 + 3) :
    deliver ev s = .error (.exc (.gp 0)) := by
  have hreal : deliverReal ev s = .error (.exc (.gp 0)) := by
    unfold deliverReal
    rw [exec_bind_of_ok (exec_get s), decide_eq_true h]
    exact exec_bind_of_error (exec_raiseIf_true _ s)
  unfold deliver
  rw [exec_bind_of_ok (exec_get s), hpe, if_neg Bool.false_ne_true, exec_bind_of_error hreal]

variable {g : Gate}

theorem enterGate_invalid (h : g.valid = false) : enterGate ev g s = .error (.exc (.gp ev.idtCode)) := by
  unfold enterGate
  rw [exec_bind_of_ok (exec_get s), h]
  exact exec_bind_of_error (exec_raiseIf_true _ s)

/-- A gate whose level an INT3 may use lets every other event pass. -/
theorem dpl_passes (h : ev.software = true → s.cpl ≤ field g.access 5 2) : (ev.software && decide (g.dpl < s.cpl)) = false := by
  cases hsoft : ev.software with
  | false => rfl
  | true => exact decide_eq_false (BitVec.not_lt.mpr (h hsoft))

theorem enterGate_valid (hvalid : g.valid = true) (hdpl : ev.software = true → s.cpl ≤ field g.access 5 2) : enterGate ev g s
    = (do
        raiseIf (!g.present) (.np ev.idtCode)
        if g.isTask then do
          deliverTask ev g
          pure ev.code
        else do
          deliverGate ev g
          pure none : Exec (Option Word32)) s := by
  unfold enterGate
  rw [exec_bind_of_ok (exec_get s), hvalid, Bool.not_true, exec_bind_of_ok (exec_raiseIf_false _ s), dpl_passes hdpl,
    exec_bind_of_ok (exec_raiseIf_false _ s)]

theorem enterGate_absent (hvalid : g.valid = true) (hdpl : ev.software = true → s.cpl ≤ field g.access 5 2)
    (h : bit g.access 7 = false) : enterGate ev g s = .error (.exc (.np ev.idtCode)) := by
  have habsent : g.present = false := h
  rw [enterGate_valid hvalid hdpl, habsent]
  exact exec_bind_of_error (exec_raiseIf_true _ s)

theorem valid_iff : g.valid = true ↔ g.access &&& 0x1F ∈ [(5 : Byte), 6, 7, 0xE, 0xF] := by
  have hall : ∀ a : Byte, Gate.valid { sel := 0, offset := 0, access := a } = true ↔ a &&& 0x1F ∈ [(5 : Byte), 6, 7, 0xE, 0xF] := by
    decide +kernel
  exact hall g.access

end

/-- Settles O9: the checks of the gate in their order, the chain of deliveries, and the first branches of the step. -/
theorem shutdownRules : Obligations.ShutdownRules := by
  refine ⟨fun ev s hpe => ⟨deliver_outside_protected hpe, fun hlimit hflat hdev => ?gates⟩, fun e f s hclass h => ?chain,
    fun e s hpe he hdf => takeException_shutDown (fun ev hlimit => ⟨_, deliver_outside_protected ?_ ?_⟩) he hdf,
    fun e s hpe he hdf => takeException_shutDown (fun ev hlimit => ⟨_, deliver_outside_real ?_ ?_⟩) he hdf, fun s hact hreset hnmi => ?down, fun s hact hreset hnmi hfree => ?nmi, fun s hreset => ?reset⟩
  case gates =>
    intro g gate
    have hdeliver : deliver ev s = enterGate ev g s := deliver_protected hpe hflat hlimit hdev
    rw [hdeliver]
    exact ⟨fun hno => enterGate_invalid (Bool.eq_false_of_not_eq_true (mt valid_iff.mp hno)),
      fun hgate hsoft hdpl => enterGate_dpl (valid_iff.mpr hgate) hsoft hdpl,
      fun hgate hdpl habsent => enterGate_absent (valid_iff.mpr hgate) hdpl habsent⟩
  case chain =>
    rw [takeException_of_fault hclass h]
    exact if_congr doubleFaults_iff rfl rfl
  case down =>
    rw [step_of_shutdown hreset hact, shutDownStep, hnmi]
    rfl
  case nmi =>
    rw [step_of_shutdown hreset hact, shutDownStep, nmiReady_iff.mpr ⟨hnmi, hfree⟩]
    rfl
  case reset =>
    refine ⟨s.afterReset, ?_, rfl, List.length_replicate .., fun e he => ?_⟩
    · unfold step cycle
      rw [hreset, if_pos rfl]
    · rw [List.eq_of_mem_replicate he]
      rfl
  all_goals
    rw [raised_eq]
    assumption

end Sys2Proof.Machine
end

section
/-! PROOFS. The frame that an event pushes (60_exceptions.md R356; 20_memory.md R144): where its slots stand, and what the pushes build there. -/

namespace Sys2Proof.Machine

/-! ### The places of a frame (R356; 20_memory.md R144) -/

/-- A stack on which a frame is built: the bytes of a slot, the base of SS, its B bit, and ESP before the first push. -/
structure Frame where
  width : Nat
  base : Word32
  big : Bool
  esp : Word32

/-- The offset of slot `k`. -/
def Frame.offset (f : Frame) (k : Nat) : Word32 :=
  let off := f.esp - BitVec.ofNat 32 (f.width * (k + 1))
  if f.big then off else zext32 (low16 off)

/-- ESP after `n` slots. -/
def Frame.espAfter (f : Frame) (n : Nat) : Word32 :=
  if f.big then f.esp - BitVec.ofNat 32 (f.width * n) else withLow16 f.esp (low16 f.esp - BitVec.ofNat 16 (f.width * n))

/-- The bytes of slot `k`. -/
def Frame.place (f : Frame) (k : Nat) : List Word32 := addrsFrom (f.base + f.offset k) f.width

/-- The bytes of `n` slots. -/
def Frame.places (f : Frame) (n : Nat) : List Word32 := (List.range n).flatMap f.place

theorem withLow16_low16 (v : Word32) : withLow16 v (low16 v) = v := by
  rw [withLow16, low16_eq_field]
  exact (field_append_field v 0 16 16).trans (field_self v)

namespace Frame
variable (f : Frame)

theorem espAfter_zero : f.espAfter 0 = f.esp := by
  unfold espAfter
  rw [Nat.mul_zero, BitVec.sub_zero, BitVec.sub_zero, withLow16_low16, ite_self]

/-- The next slot stands below ESP as it is then. -/
theorem offset_eq (n : Nat) : f.offset n = if f.big then f.espAfter n - BitVec.ofNat 32 f.width
    else zext32 (low16 (f.espAfter n - BitVec.ofNat 32 f.width)) := by
  have hsum : f.width * (n + 1) = f.width * n + f.width := Nat.mul_succ ..
  unfold offset espAfter
  cases f.big with
  | true => simp only [if_true, hsum, BitVec.ofNat_add, BitVec.sub_sub]
  | false =>
    simp only [Bool.false_eq_true, if_false, hsum, BitVec.ofNat_add, low16_sub, low16_add, low16_withLow16, low16_ofNat, BitVec.sub_sub]

theorem espAfter_succ (n : Nat) :
    f.espAfter (n + 1) = if f.big then f.offset n else withLow16 (f.espAfter n) (low16 (f.offset n)) := by
  unfold offset espAfter
  cases f.big with
  | true => simp only [if_true]
  | false => simp only [Bool.false_eq_true, if_false, withLow16_withLow16, low16_zext32, low16_sub, low16_ofNat]

theorem places_succ (n : Nat) : f.places (n + 1) = f.places n ++ f.place n := by
  rw [places, List.range_succ, List.flatMap_append, List.flatMap_singleton]
  rfl

variable {f}

theorem mem_places {n : Nat} {a : Word32} : a ∈ f.places n ↔ ∃ k, k < n ∧ a ∈ f.place k := by
  simp only [places, List.mem_flatMap, List.mem_range]

theorem mem_place {k : Nat} {a : Word32} (h : a ∈ f.place k) :
    ∃ i, i < f.width ∧ a = f.base + (f.offset k + BitVec.ofNat 32 i) := by
  rw [place, addrsFrom_eq_map, List.mem_map] at h
  obtain ⟨i, hi, rfl⟩ := h
  exact ⟨i, List.mem_range.mp hi, BitVec.add_assoc ..⟩

/-- The slots of a word or a double word follow each other modulo 64 KB, so that in a frame much shorter than that no two have a byte
in common. -/
theorem place_disjoint (hw : f.width = 2 ∨ f.width = 4) {j k : Nat} (hjk : j < k) (hk : k < 16) {a : Word32} (ha : a ∈ f.place j) :
    a ∉ f.place k := by
  intro hb
  obtain ⟨x, hx, rfl⟩ := mem_place ha
  obtain ⟨y, hy, heq⟩ := mem_place hb
  have hnum := congrArg BitVec.toNat ((BitVec.add_right_inj f.base).mp heq)
  have hesp := f.esp.isLt
  unfold offset at hnum
  cases hbig : f.big with
  | true =>
    simp only [hbig, if_true, BitVec.toNat_add, BitVec.toNat_sub, BitVec.toNat_ofNat] at hnum
    obtain hw | hw := hw <;> rw [hw] at hnum hx hy <;> omega
  | false =>
    simp only [hbig, Bool.false_eq_true, if_false, low16, zext32, BitVec.toNat_setWidth, BitVec.toNat_add, BitVec.toNat_sub,
      BitVec.toNat_ofNat] at hnum
    obtain hw | hw := hw <;> rw [hw] at hnum hx hy <;> omega

theorem nodup_place (hw : f.width = 2 ∨ f.width = 4) (k : Nat) : (f.place k).Nodup :=
  nodup_addrsFrom _ (by obtain hw | hw := hw <;> rw [hw] <;> decide)

theorem length_place (hw : f.width = 2 ∨ f.width = 4) (k : Nat) (v : Word32) : (f.place k).length = ((bytes32 v).take f.width).length := by
  rw [place, addrsFrom_length]
  obtain hw | hw := hw <;> rw [hw] <;> rfl

end Frame

/-! ### What the pushes of a frame build -/

/-- `t` holds the slots below ESP, and no other byte differs from `s`. -/
structure Frame.Built (f : Frame) (s : State) (slots : List Word32) (t : State) : Prop where
  top : t.gpr.esp = f.espAfter slots.length
  stored : ∀ k x, slots[k]? = some x → t.bytesAt (f.place k) = (bytes32 x).take f.width
  bytes : ∀ a, a ∉ f.places slots.length → t.physByte a = s.physByte a
  wf : Memory.wf t.mem = true

/-- There is room for `n` slots on the stack of `t`, with paging off. -/
structure Frame.Room (f : Frame) (n : Nat) (t : State) : Prop where
  flat : t.paging = false
  prot : t.prot = true
  ssBase : t.segs.ss.cache.base = f.base
  ssBig : t.segs.ss.cache.big = f.big
  allow : ∀ k, k < n → t.segAllows .ss true (f.offset k) f.width = true
  ram : t.ram (f.places n) = true

/-- The state after slot `k` is pushed. -/
def Frame.pushed (f : Frame) (k : Nat) (v : Word32) (t : State) : State :=
  { t.storeBytes (f.place k) ((bytes32 v).take f.width) with gpr := { t.gpr with esp := f.espAfter (k + 1) } }

/-- The pushes of a frame, in order. -/
def pushAll (z : OpSize) : List Word32 → Exec Unit
  | [] => pure ()
  | x :: xs => do
    pushFrame z x
    pushAll z xs

theorem bytes32_take (z : OpSize) (v : Word32) : (bytes32 v).take (slotBytes z) = slotImage z v := by
  cases z with
  | s32 => rfl
  | s16 =>
    have hbits {lo : Nat} (h : lo + 8 ≤ 16) : field v lo 8 = field (low16 v) lo 8 := by
      refine BitVec.eq_of_getLsbD_eq fun j hj => ?_
      have hin : decide (lo + j < 16) = true := decide_eq_true (by omega)
      rw [getLsbD_field, getLsbD_field, low16, BitVec.getLsbD_setWidth, hin, Bool.true_and]
    exact congrArg₂ (fun a b => [a, b]) (hbits (lo := 0) (by decide)) (hbits (lo := 8) (by decide))

section
variable {f : Frame} {n : Nat} {s t : State} {slots : List Word32}

theorem Frame.built_nil (hesp : t.gpr.esp = f.esp) (hmem : t.mem = s.mem) (hwf : Memory.wf s.mem = true) : f.Built s [] t where
  top := hesp.trans f.espAfter_zero.symm
  stored k x h := by cases h
  bytes a _ := congrArg (Memory.read · a.toNat) hmem
  wf := hmem ▸ hwf

/-- What is built depends on ESP and memory alone. -/
theorem Frame.Built.of_eq {u : State} (h : f.Built s slots t) (hesp : u.gpr.esp = t.gpr.esp) (hmem : u.mem = t.mem) :
    f.Built s slots u := by
  have hbyte : u.physByte = t.physByte := funext fun a => congrArg (Memory.read · a.toNat) hmem
  refine ⟨hesp.trans h.top, fun k x hx => ?_, fun a ha => ?_, hmem ▸ h.wf⟩
  · rw [State.bytesAt, hbyte]
    exact h.stored k x hx
  · rw [hbyte]
    exact h.bytes a ha

theorem Frame.Room.of_eq {u : State} (h : f.Room n t) (hflat : u.paging = t.paging) (hprot : u.prot = t.prot)
    (hss : u.segs.ss = t.segs.ss) (hpart : u.part = t.part) : f.Room n u where
  flat := hflat.trans h.flat
  prot := hprot.trans h.prot
  ssBase := hss ▸ h.ssBase
  ssBig := hss ▸ h.ssBig
  allow k hk := by
    have hsame : u.seg .ss = t.seg .ss := hss
    rw [segAllows_of_prot (hprot.trans h.prot), hsame, ← segAllows_of_prot h.prot]
    exact h.allow k hk
  ram := by
    rw [State.ram, hpart]
    exact h.ram

theorem Frame.Room.ram_place (h : f.Room n t) {k : Nat} (hk : k < n) : t.ram (f.place k) = true :=
  List.all_eq_true.mpr fun a ha => List.all_eq_true.mp h.ram a (Frame.mem_places.mpr ⟨k, hk, ha⟩)

theorem Frame.pushed_eq (k : Nat) (v : Word32) : f.pushed k v t = { t with
    gpr := { t.gpr with esp := f.espAfter (k + 1) }, mem := (f.pushed k v t).mem } := by
  rw [Frame.pushed, storeBytes_eq]

theorem Frame.Room.pushed (h : f.Room n t) (k : Nat) (v : Word32) : f.Room n (f.pushed k v t) := by
  refine h.of_eq ?_ ?_ ?_ ?_ <;> rw [f.pushed_eq] <;> rfl

theorem pushFrame_slot {z : OpSize} (hz : slotBytes z = f.width) (hroom : f.Room n t) {k : Nat} (hk : k < n)
    (htop : t.gpr.esp = f.espAfter k) (v : Word32) : pushFrame z v t = .ok ((), f.pushed k v t) := by
  have hsize : t.stackSize = if f.big then .s32 else .s16 := by
    rw [State.stackSize, hroom.prot, hroom.ssBig, Bool.true_and]
  have hoff : t.pushOffset z = f.offset k := by
    rw [f.offset_eq, ← htop, State.pushOffset, State.stackWrap, hsize, hz]
    cases f.big <;> rfl
  have hplace : addrsFrom (t.linear .ss (t.pushOffset z)) (slotBytes z) = f.place k := by
    rw [hoff, hz, Frame.place, ← hroom.ssBase]
    rfl
  have hallow : t.segAllows .ss true (t.pushOffset z) (slotBytes z) = true := by
    rw [hoff, hz]
    exact hroom.allow k hk
  have hstack (u : State) (hu : u.stackSize = t.stackSize) (hg : u.gpr = t.gpr) :
      u.setStackTop (f.offset k) = { u with gpr := { t.gpr with esp := f.espAfter (k + 1) } } := by
    rw [setStackTop_eq, hu, hsize, f.espAfter_succ, hg, htop]
    cases f.big <;> rfl
  rw [pushFrame_flat hroom.flat hallow (hplace ▸ deviceAt_of_ram (hroom.ram_place hk)), hplace, hoff, toBytes_slotBytes, ← bytes32_take,
    hz, hstack _ (by rw [storeBytes_eq]; rfl) (storeBytes_gpr ..)]
  rfl

theorem Frame.built_pushed (hw : f.width = 2 ∨ f.width = 4) (hlen : slots.length < 16) (hram : t.ram (f.place slots.length) = true)
    (h : f.Built s slots t) (v : Word32) : f.Built s (slots ++ [v]) (f.pushed slots.length v t) := by
  have hother {a : Word32} (ha : a ∉ f.place slots.length) : (f.pushed slots.length v t).physByte a = t.physByte a :=
    physByte_storeBytes_other _ ha h.wf
  have hlength : (slots ++ [v]).length = slots.length + 1 := List.length_append
  refine { top := by rw [hlength]; rfl, stored := fun k x hx => ?_, bytes := fun a ha => ?_, wf := storeBytes_wf _ _ h.wf }
  · obtain hk | rfl | hk := Nat.lt_trichotomy k slots.length
    · rw [List.getElem?_append_left hk] at hx
      rw [← h.stored k x hx]
      exact List.map_congr_left fun a ha => hother (Frame.place_disjoint hw hk hlen ha)
    · rw [List.getElem?_concat_length, Option.some.injEq] at hx
      subst hx
      exact bytesAt_storeBytes (Frame.length_place hw _ v) (Frame.nodup_place hw _) hram h.wf
    · rw [List.getElem?_eq_none (by rw [hlength]; omega)] at hx
      cases hx
  · rw [hlength, f.places_succ, List.mem_append, not_or] at ha
    obtain ⟨hbefore, hlast⟩ := ha
    exact (hother hlast).trans (h.bytes a hbefore)

/-- The pushes build the frame where there is room for it, and change ESP and memory alone. -/
theorem pushAll_ok {z : OpSize} (hz : slotBytes z = f.width) (hn : n ≤ 16) (xs : List Word32) {slots : List Word32} {t : State}
    (hroom : f.Room n t) (h : f.Built s slots t) (hlen : slots.length + xs.length ≤ n) :
    ∃ u, pushAll z xs t = .ok ((), u) ∧ f.Built s (slots ++ xs) u
      ∧ u = { t with gpr := { t.gpr with esp := f.espAfter (slots.length + xs.length) }, mem := u.mem } := by
  have hw : f.width = 2 ∨ f.width = 4 := by rw [← hz]; cases z <;> decide
  induction xs generalizing slots t with
  | nil =>
    refine ⟨t, rfl, (List.append_nil slots).symm ▸ h, ?_⟩
    rw [List.length_nil, Nat.add_zero, ← h.top]
  | cons x xs ih =>
    rw [List.length_cons] at hlen
    have hk : slots.length < n := by omega
    have hlength : (slots ++ [x]).length + xs.length = slots.length + (xs.length + 1) := by
      rw [List.length_append, List.length_singleton]
      omega
    obtain ⟨u, hrest, hbuilt, hu⟩ := ih (hroom.pushed _ x) (Frame.built_pushed hw (by omega) (hroom.ram_place hk) h x) (hlength ▸ hlen)
    refine ⟨u, (exec_bind_of_ok (pushFrame_slot hz hroom hk h.top x)).trans hrest, by rwa [List.append_assoc] at hbuilt, ?_⟩
    rw [hu, f.pushed_eq, hlength]
    rfl

end

end Sys2Proof.Machine
end

section
/-! PROOFS. Delivery through an interrupt or trap gate (60_exceptions.md R354, R357, R359, R361): the checks of the handler's code segment, the
flags, and the level. -/

namespace Sys2Proof.Machine

/-! ### The handler's code segment (R354, R359; log 20) -/

/-- A null selector has code 0 (60 R322). -/
theorem selCode_of_null {sel : Word16} (h : field sel 2 14 = 0) : selCode sel = 0 := by
  have hand : sel &&& 0xFFFC = 0 := by
    refine BitVec.eq_of_getLsbD_eq fun j hj => ?_
    rw [BitVec.getLsbD_and]
    obtain hj2 | hj2 := Nat.lt_or_ge j 2
    · obtain rfl | rfl : j = 0 ∨ j = 1 := by omega
      all_goals exact Bool.and_false _
    · have hbit : (field sel 2 14).getLsbD (j - 2) = sel.getLsbD j := by
        rw [getLsbD_field, Nat.add_sub_cancel' hj2, decide_eq_true (by omega), Bool.true_and]
      rw [← hbit, h]
      simp
  rw [selCode, hand]
  rfl

/-- The descriptor of a handler may be entered: a code segment, of level 0 from Virtual-86 Mode. -/
def HandlerFits (s : State) (d : SegCache) : Prop :=
  bit d.attr 4 = true ∧ bit d.attr 3 = true ∧ (s.vm = true → field d.attr 5 2 = 0)

theorem isCode_iff {d : SegCache} : d.isCode = true ↔ bit d.attr 4 = true ∧ bit d.attr 3 = true := Bool.and_eq_true_iff

theorem v86_level_iff {s : State} (hpe : s.pe = true) {d : SegCache} :
    (s.v86 && d.dpl != 0) = false ↔ (s.vm = true → field d.attr 5 2 = 0) := by
  have hv86 : s.v86 = s.vm := by rw [State.v86, hpe, Bool.true_and]
  have hdpl : (d.dpl != 0) = false ↔ field d.attr 5 2 = 0 := by
    rw [bne_eq_false_iff_eq]
    rfl
  rw [hv86, Bool.and_eq_false_iff, hdpl]
  cases s.vm <;> simp

section
variable {sel : Word16} {ext : Word32} {s : State}

theorem handlerCode_bad (h : field sel 2 14 = 0 ∨ s.outsideTable sel) :
    handlerCode sel ext s = .error (.exc (.gp (selCode sel + ext))) := by
  unfold handlerCode
  rw [exec_bind_of_ok (exec_get s)]
  by_cases hnull : field sel 2 14 = 0
  · have hzero : (0 : Word32) + ext = ext := BitVec.zero_add _
    rw [selCode_of_null hnull, hzero]
    exact exec_bind_of_error (raiseIf_raises (selNull_iff.mpr hnull))
  · rw [not_selNull hnull, exec_bind_of_ok (exec_raiseIf_false _ s),
      exec_bind_of_error (readDescriptor_outside (h.resolve_left hnull) _)]

variable (hnull : field sel 2 14 ≠ 0) {d : SegCache} {u : State}
  (hread : readDescriptor sel (.gp (selCode sel + ext)) s = .ok (d, u))
include hnull hread

theorem handlerCode_read : handlerCode sel ext s = (do
    raiseIf (!d.isCode) (.gp (selCode sel + ext))
    raiseIf (s.v86 && d.dpl != 0) (.gp (selCode sel + ext))
    raiseIf (!d.present) (.np (selCode sel + ext))
    pure d : Exec SegCache) u := by
  unfold handlerCode
  rw [exec_bind_of_ok (exec_get s), not_selNull hnull, exec_bind_of_ok (exec_raiseIf_false _ s), exec_bind_of_ok hread]

variable (hpe : s.pe = true)
include hpe

theorem handlerCode_unfit (h : ¬ HandlerFits s d) : handlerCode sel ext s = .error (.exc (.gp (selCode sel + ext))) := by
  rw [handlerCode_read hnull hread]
  cases hcode : d.isCode with
  | false => exact exec_bind_of_error (exec_raiseIf_true _ u)
  | true =>
    obtain ⟨hseg, htype⟩ := isCode_iff.mp hcode
    have hlevel : (s.v86 && d.dpl != 0) = true :=
      Bool.eq_true_of_not_eq_false fun hok => h ⟨hseg, htype, (v86_level_iff hpe).mp hok⟩
    rw [hlevel, Bool.not_true, exec_bind_of_ok (exec_raiseIf_false _ u)]
    exact exec_bind_of_error (exec_raiseIf_true _ u)

variable (hfits : HandlerFits s d)
include hfits

theorem handlerCode_fits : handlerCode sel ext s
    = (do raiseIf (!d.present) (.np (selCode sel + ext)); pure d : Exec SegCache) u := by
  obtain ⟨hseg, htype, hlevel⟩ := hfits
  rw [handlerCode_read hnull hread, isCode_iff.mpr ⟨hseg, htype⟩, (v86_level_iff hpe).mpr hlevel, Bool.not_true,
    exec_bind_of_ok (exec_raiseIf_false _ u), exec_bind_of_ok (exec_raiseIf_false _ u)]

theorem handlerCode_absent (h : bit d.attr 7 = false) : handlerCode sel ext s = .error (.exc (.np (selCode sel + ext))) := by
  have hp : d.present = false := h
  rw [handlerCode_fits hnull hread hpe hfits, hp]
  exact exec_bind_of_error (exec_raiseIf_true _ u)

theorem handlerCode_ok (h : bit d.attr 7 = true) : handlerCode sel ext s = .ok (d, u) := by
  have hp : d.present = true := h
  rw [handlerCode_fits hnull hread hpe hfits, hp, Bool.not_true, exec_bind_of_ok (exec_raiseIf_false _ u), exec_pure]

end

/-! ### The gate (R357) -/

section
variable {g : Gate}

theorem gate_type_bit (g : Gate) {k : Nat} (hk : k < 4) : bit g.type k = bit g.access k := by
  have hbit : (field g.access 0 4).getLsbD k = g.access.getLsbD k := by
    rw [getLsbD_field, Nat.zero_add, decide_eq_true hk, Bool.true_and]
  exact hbit

theorem slotBytes_gate (g : Gate) : slotBytes g.size = if bit g.access 3 then 4 else 2 := by
  rw [Gate.size, gate_type_bit g (by decide)]
  cases bit g.access 3 <;> rfl

theorem not_isTask_of_type (h : g.access &&& 0x1F ∈ [(6 : Byte), 7, 0xE, 0xF]) : g.isTask = false := by
  have hall : ∀ a : Byte, a &&& 0x1F ∈ [(6 : Byte), 7, 0xE, 0xF] → Gate.isTask { sel := 0, offset := 0, access := a } = false := by
    decide +kernel
  exact hall g.access h

theorem isTask_of_type (h : g.access &&& 0x1F = 5) : g.isTask = true := by
  have hall : ∀ a : Byte, a &&& 0x1F = 5 → Gate.isTask { sel := 0, offset := 0, access := a } = true := by decide +kernel
  exact hall g.access h

/-- EFLAGS after the entry through a gate (R361). -/
theorem entryFlags_gate (g : Gate) (fl : Word32) :
    entryFlags fl g.clearsIf = fl &&& ~~~ (if bit g.access 0 then 0x00034100 else 0x00034300) := by
  have hclears : g.clearsIf = !bit g.access 0 := congrArg (!·) (gate_type_bit g (by decide))
  rw [hclears]
  cases bit g.access 0 with
  | true =>
    show ((((fl &&& ~~~ 0x100) &&& ~~~ 0x4000) &&& ~~~ 0x20000) &&& ~~~ 0x10000 : Word32) = _
    simp only [BitVec.and_assoc]
    rfl
  | false =>
    show (((((fl &&& ~~~ 0x100) &&& ~~~ 0x4000) &&& ~~~ 0x20000) &&& ~~~ 0x10000) &&& ~~~ 0x200 : Word32) = _
    simp only [BitVec.and_assoc]
    rfl

/-- VM is cleared by the entry in any case. -/
theorem entryFlags_outOfV86 (g : Gate) (fl : Word32) : entryFlags (setBit fl 17 false) g.clearsIf = entryFlags fl g.clearsIf := by
  have hclear : setBit fl 17 false = fl &&& ~~~ 0x20000 := rfl
  rw [entryFlags_gate, entryFlags_gate, hclear, BitVec.and_assoc]
  cases bit g.access 0 <;> rfl

end

/-! ### Entry to the handler's code (R354, R361) -/

/-- The state after the entry to the handler in code segment `d`, whose frame `t` holds. -/
def State.inHandler (t : State) (ev : Event) (g : Gate) (d : SegCache) : State := { t with
  eip := if bit d.attr 10 then g.offset else zext32 (low16 g.offset)
  eflags := entryFlags t.eflags g.clearsIf
  segs := { t.segs with cs := { sel := field g.sel 2 14 ++ t.cpl, cache := d } }
  dr7 := if ev.vector = 1 then setBit t.dr7 13 false else t.dr7 }

theorem enterHandler_eq (t : State) (ev : Event) :
    t.enterHandler ev = { t with dr7 := if ev.vector = 1 then setBit t.dr7 13 false else t.dr7 } := by
  unfold State.enterHandler
  split <;> rfl

section
variable {ev : Event} {g : Gate} {d : SegCache} {s t₁ t₂ : State}

/-- The load of CS and the jump, once the frame is pushed. -/
theorem enterHandlerCode_ok {t : State} (hpe : t.pe = true) (hacc : bit d.attr 0 = true) : (do
    loadSeg .cs (withRpl g.sel t.cpl) d
    modify fun t => (t.jumpTo g.offset (entryFlags t.eflags g.clearsIf)).enterHandler ev : Exec Unit) t
      = .ok ((), t.inHandler ev g d) := by
  have hload := loadSeg_of_accessed hacc .cs (withRpl g.sel t.cpl) t
  have hjump := jumpTo_loadSeg (eip := g.offset) hload hpe (bit_entryFlags_vm t.eflags g.clearsIf)
  rw [exec_bind_of_ok hload, exec_modify, enterHandler_eq]
  exact congrArg (fun u : State => Except.ok ((), { u with dr7 := if ev.vector = 1 then setBit u.dr7 13 false else u.dr7 })) hjump

theorem pushCode_eq (z : OpSize) (c : Option Word32) : pushCode z c = pushAll z c.toList := by
  cases c with
  | none => rfl
  | some c => exact (bind_pure_unit (x := pushFrame z c)).symm

/-- Delivery through a gate: the change of stack, the frame, the handler's code. -/
theorem deliverGate_ok (hcode : handlerCode g.sel ev.ext s = .ok (d, s))
    (hinner : onlyIf (s.entersInner d) (enterInner g.size d.dpl ev.ext) s = .ok ((), t₁))
    (hpush : pushAll g.size (ev.slots s) t₁ = .ok ((), t₂)) (hpe : t₂.pe = true) (hacc : bit d.attr 0 = true) :
    deliverGate ev g s = .ok ((), t₂.inHandler ev g d) := by
  rw [Event.slots, List.cons_append, List.cons_append, List.singleton_append] at hpush
  obtain ⟨_, u₁, hflags, hpush⟩ := exec_bind_ok hpush
  obtain ⟨_, u₂, hcs, hpush⟩ := exec_bind_ok hpush
  obtain ⟨_, u₃, heip, hpush⟩ := exec_bind_ok hpush
  rw [← pushCode_eq] at hpush
  unfold deliverGate
  rw [exec_bind_of_ok (exec_get s), exec_bind_of_ok hcode, exec_bind_of_ok hinner]
  rw [exec_bind_of_ok (show pushFrame g.size (ev.image s) t₁ = _ from hflags), exec_bind_of_ok hcs, exec_bind_of_ok heip,
    exec_bind_of_ok hpush, exec_bind_of_ok (exec_get t₂)]
  exact enterHandlerCode_ok hpe hacc

theorem deliverGate_code_error {e : Stop} (h : handlerCode g.sel ev.ext s = .error e) : deliverGate ev g s = .error e := by
  unfold deliverGate
  rw [exec_bind_of_ok (exec_get s), exec_bind_of_error h]

theorem deliverGate_inner_error {e : Stop} (hcode : handlerCode g.sel ev.ext s = .ok (d, s)) (henters : s.entersInner d = true)
    (h : enterInner g.size d.dpl ev.ext s = .error e) : deliverGate ev g s = .error e := by
  unfold deliverGate
  rw [exec_bind_of_ok (exec_get s), exec_bind_of_ok hcode, henters]
  exact exec_bind_of_error h

end

/-! ### The level of the handler (R354, R359) -/

section
variable {s : State} {d : SegCache} (hpe : s.pe = true) (hcode : bit d.attr 4 = true ∧ bit d.attr 3 = true)
include hpe hcode

theorem entersInner_eq : s.entersInner d = (s.vm || (!bit d.attr 2 && decide (field d.attr 5 2 < s.cpl))) := by
  have hconforming : d.conforming = bit d.attr 2 := by rw [SegCache.conforming, isCode_iff.mpr hcode, Bool.true_and]
  rw [State.entersInner, State.v86, hpe, Bool.true_and, hconforming]
  rfl

theorem entersInner_same (hvm : s.vm = false) (h : bit d.attr 2 = true ∨ s.cpl ≤ field d.attr 5 2) : s.entersInner d = false := by
  rw [entersInner_eq hpe hcode, hvm, Bool.false_or, Bool.and_eq_false_iff, Bool.not_eq_false', decide_eq_false_iff_not, BitVec.not_lt]
  exact h

theorem entersInner_inner (h : (s.vm = true ∧ field d.attr 5 2 = 0)
    ∨ (s.vm = false ∧ bit d.attr 2 = false ∧ field d.attr 5 2 < s.cpl)) : s.entersInner d = true := by
  rw [entersInner_eq hpe hcode]
  obtain ⟨hvm, -⟩ | ⟨-, hconf, hlevel⟩ := h
  · rw [hvm, Bool.true_or]
  · rw [hconf, decide_eq_true hlevel]
    exact Bool.or_true _

end

end Sys2Proof.Machine
end

section
/-! PROOFS. The change to the inner stack (60_exceptions.md R354, R359; 20_memory.md R151, R157): the stack of the level in the TSS, the checks of
its segment. -/

namespace Sys2Proof.Machine

/-! ### Through a gate that is ready (R354, R357) -/

section
variable {ev : Event} {g : Gate} {s : State} (hdpl : ev.software = true → s.cpl ≤ field g.access 5 2) (hpresent : bit g.access 7 = true)
include hdpl hpresent

theorem enterGate_present (hvalid : g.valid = true) : enterGate ev g s
    = (if g.isTask then do deliverTask ev g; pure ev.code else do deliverGate ev g; pure none : Exec (Option Word32)) s := by
  have hp : g.present = true := hpresent
  rw [enterGate_valid hvalid hdpl, hp, Bool.not_true, exec_bind_of_ok (exec_raiseIf_false _ s)]

theorem enterGate_code (htype : g.access &&& 0x1F ∈ [(6 : Byte), 7, 0xE, 0xF]) :
    enterGate ev g s = (do deliverGate ev g; pure none : Exec (Option Word32)) s := by
  rw [enterGate_present hdpl hpresent (valid_of_type htype), not_isTask_of_type htype]
  rfl

theorem enterGate_task (htype : g.access &&& 0x1F = 5) :
    enterGate ev g s = (do deliverTask ev g; pure ev.code : Exec (Option Word32)) s := by
  rw [enterGate_present hdpl hpresent (valid_iff.mpr (htype ▸ List.mem_cons_self)), isTask_of_type htype]
  rfl

end

/-! ### A descriptor of the GDT (20_memory.md R150) -/

theorem descriptorAddr_gdt {s : State} {sel : Word16} (hti : bit sel 2 = false) :
    s.descriptorAddr sel = s.gdtr.base + zext32 (sel &&& 0xFFF8) := by
  have hsel : selTi sel = false := hti
  rw [State.descriptorAddr, hsel]
  rfl

theorem readDescriptor_gdt {s : State} {sel : Word16} (hflat : s.paging = false) (hti : bit sel 2 = false)
    (hlimit : (sel &&& 0xFFF8).toNat + 7 ≤ s.gdtr.limit.toNat)
    (hdev : s.deviceAt (addrsFrom (s.gdtr.base + zext32 (sel &&& 0xFFF8)) 8) = false) (bad : Exn) :
    readDescriptor sel bad s = .ok (s.descriptorAt (s.gdtr.base + zext32 (sel &&& 0xFFF8)), s) := by
  have hin : ¬ s.outsideTable sel := by
    rw [outsideTable_gdt_iff hti, ← selector_offset_toNat]
    omega
  rw [← descriptorAddr_gdt hti] at hdev ⊢
  exact readDescriptor_flat hflat hin hdev bad

/-! ### The inner stack of the current TSS (R354; log 19, log 45) -/

/-- Where the inner stack of level `l` stands in the current TSS. -/
def State.innerLink (s : State) (l : BitVec 2) : Word32 :=
  s.tr.cache.base + (if s.tr.cache.isTss16 = true then BitVec.ofNat 32 (4 * l.toNat + 2) else BitVec.ofNat 32 (8 * l.toNat + 4))

/-- The bytes that the stack pointer and the selector take. -/
def State.innerBytes (s : State) : Nat := if s.tr.cache.isTss16 = true then 4 else 6

/-- The last byte of the inner stack's selector. -/
def State.innerReach (s : State) (l : BitVec 2) : Nat := if s.tr.cache.isTss16 = true then 4 * l.toNat + 5 else 8 * l.toNat + 9

def State.innerEsp (s : State) (l : BitVec 2) : Word32 :=
  if s.tr.cache.isTss16 = true then zext32 (s.phys16 (s.innerLink l)) else s.phys32 (s.innerLink l)

def State.innerSel (s : State) (l : BitVec 2) : Word16 :=
  if s.tr.cache.isTss16 = true then s.phys16 (s.innerLink l + 2) else s.phys16 (s.innerLink l + 4)

theorem tss16_flat {s : State} {base off : Word32} (hflat : s.paging = false) (hdev : s.deviceAt (addrsFrom (base + off) 2) = false) :
    tss16 base off s = .ok (s.phys16 (base + off), s) := by
  unfold tss16
  rw [exec_bind_of_ok (sysRead_flat hflat hdev), exec_pure, bytesAt_two, littleEndian_two, BitVec.ofNat_toNat, BitVec.setWidth_eq]
  rfl

theorem tss32_flat {s : State} {base off : Word32} (hflat : s.paging = false) (hdev : s.deviceAt (addrsFrom (base + off) 4) = false) :
    tss32 base off s = .ok (s.phys32 (base + off), s) := by
  unfold tss32
  rw [exec_bind_of_ok (sysRead_flat hflat hdev), exec_pure, littleEndian_phys32, BitVec.ofNat_toNat, BitVec.setWidth_eq]

theorem add_ofNat_add (base : Word32) (m n : Nat) :
    base + BitVec.ofNat 32 (m + n) = base + BitVec.ofNat 32 m + BitVec.ofNat 32 n := by
  rw [BitVec.ofNat_add, BitVec.add_assoc]

section
variable {s : State} (l : BitVec 2) (ext : Word32)

theorem innerStack_short (h : s.tr.cache.byteLimit < s.innerReach l) :
    innerStack l ext s = .error (.exc (.ts (selCode s.tr.sel + ext))) := by
  unfold State.innerReach at h
  unfold innerStack
  rw [exec_bind_of_ok (exec_get s)]
  cases hsmall : s.tr.cache.isTss16 with
  | true =>
    rw [hsmall, if_pos rfl] at h
    exact (exec_bind_of_ok (exec_get s)).trans (exec_bind_of_error (raiseIf_raises (decide_eq_true h)))
  | false =>
    rw [hsmall, if_neg Bool.false_ne_true] at h
    exact (exec_bind_of_ok (exec_get s)).trans (exec_bind_of_error (raiseIf_raises (decide_eq_true h)))

theorem innerStack_ok (hflat : s.paging = false) (hreach : s.innerReach l ≤ s.tr.cache.byteLimit)
    (hdev : s.deviceAt (addrsFrom (s.innerLink l) s.innerBytes) = false) :
    innerStack l ext s = .ok ((s.innerSel l, s.innerEsp l), s) := by
  unfold innerStack
  unfold State.innerReach at hreach
  unfold State.innerLink State.innerBytes at hdev
  unfold State.innerSel State.innerEsp State.innerLink
  rw [exec_bind_of_ok (exec_get s)]
  cases hsmall : s.tr.cache.isTss16 with
  | true =>
    simp only [hsmall, if_true] at hreach hdev ⊢
    rw [addrsFrom_append _ 2 2, ← add_ofNat_add, deviceAt_append_eq_false_iff] at hdev
    obtain ⟨hsp, hss⟩ := hdev
    have hlink := add_ofNat_add s.tr.cache.base (4 * l.toNat + 2) 2
    unfold innerStack16
    rw [exec_bind_of_ok (exec_get s), decide_eq_false (Nat.not_lt.mpr hreach), exec_bind_of_ok (exec_raiseIf_false _ s),
      exec_bind_of_ok (tss16_flat hflat hsp), exec_bind_of_ok (tss16_flat hflat hss), exec_pure, hlink]
    rfl
  | false =>
    simp only [hsmall, Bool.false_eq_true, if_false] at hreach hdev ⊢
    rw [addrsFrom_append _ 4 2, ← add_ofNat_add, deviceAt_append_eq_false_iff] at hdev
    obtain ⟨hesp, hss⟩ := hdev
    have hlink := add_ofNat_add s.tr.cache.base (8 * l.toNat + 4) 4
    unfold innerStack32
    rw [exec_bind_of_ok (exec_get s), decide_eq_false (Nat.not_lt.mpr hreach), exec_bind_of_ok (exec_raiseIf_false _ s),
      exec_bind_of_ok (tss32_flat hflat hesp), exec_bind_of_ok (tss16_flat hflat hss), exec_pure, hlink]
    rfl

end

/-! ### The segment of the inner stack (20_memory.md R151; log 19) -/

section
variable {sel : Word16} {l : BitVec 2} {ext : Word32} {s : State}

theorem innerStackSegment_bad (h : field sel 2 14 = 0 ∨ s.outsideTable sel) :
    innerStackSegment sel l ext s = .error (.exc (.gp (selCode sel + ext))) := by
  unfold innerStackSegment
  by_cases hnull : field sel 2 14 = 0
  · exact exec_bind_of_error (raiseIf_raises (selNull_iff.mpr hnull))
  · rw [not_selNull hnull, exec_bind_of_ok (exec_raiseIf_false _ s),
      exec_bind_of_error (readDescriptor_outside (h.resolve_left hnull) _)]

variable (hnull : field sel 2 14 ≠ 0) {d : SegCache} {u : State}
  (hread : readDescriptor sel (.gp (selCode sel + ext)) s = .ok (d, u))
include hnull hread

theorem innerStackSegment_read : innerStackSegment sel l ext s = (do
    raiseIf (!stackFits d sel l) (.gp (selCode sel + ext))
    raiseIf (!d.present) (.ss (selCode sel + ext))
    pure d : Exec SegCache) u := by
  unfold innerStackSegment
  rw [not_selNull hnull, exec_bind_of_ok (exec_raiseIf_false _ s), exec_bind_of_ok hread]

theorem innerStackSegment_unfit (h : ¬ StackFits d sel l) :
    innerStackSegment sel l ext s = .error (.exc (.gp (selCode sel + ext))) := by
  rw [innerStackSegment_read hnull hread, Bool.eq_false_of_not_eq_true (mt stackFits_iff.mpr h)]
  exact exec_bind_of_error (exec_raiseIf_true _ u)

variable (hfits : StackFits d sel l)
include hfits

theorem innerStackSegment_absent (h : bit d.attr 7 = false) :
    innerStackSegment sel l ext s = .error (.exc (.ss (selCode sel + ext))) := by
  have hp : d.present = false := h
  rw [innerStackSegment_read hnull hread, stackFits_iff.mp hfits, hp, Bool.not_true, exec_bind_of_ok (exec_raiseIf_false _ u)]
  exact exec_bind_of_error (exec_raiseIf_true _ u)

theorem innerStackSegment_ok (h : bit d.attr 7 = true) : innerStackSegment sel l ext s = .ok (d, u) := by
  have hp : d.present = true := h
  rw [innerStackSegment_read hnull hread, stackFits_iff.mp hfits, hp, Bool.not_true, exec_bind_of_ok (exec_raiseIf_false _ u),
    exec_bind_of_ok (exec_raiseIf_false _ u), exec_pure]

end

/-! ### The change to the inner stack (R354, R359; log 44) -/

section
variable {z : OpSize} {l : BitVec 2} {ext : Word32} {s : State} {e : Stop}

theorem enterInner_stack_error (h : innerStack l ext s = .error e) : enterInner z l ext s = .error e := by
  unfold enterInner
  rw [exec_bind_of_ok (exec_get s), exec_bind_of_error h]

variable {sel : Word16} {esp : Word32} (hstack : innerStack l ext s = .ok ((sel, esp), s))
include hstack

theorem enterInner_segment_error (h : innerStackSegment sel l ext s = .error e) : enterInner z l ext s = .error e := by
  unfold enterInner
  rw [exec_bind_of_ok (exec_get s), exec_bind_of_ok hstack]
  exact exec_bind_of_error h

end

/-- The inner stack before the first push: level, VM, SS and ESP. -/
def State.onInnerStack (s : State) (l : BitVec 2) (sel : Word16) (q : SegCache) (esp : Word32) : State :=
  { s with
    cplField := l
    eflags := setBit s.eflags 17 false
    segs := { s.segs with ss := { sel := sel, cache := q } }
    gpr := { s.gpr with esp := esp } }

/-- The data segment registers that an event in Virtual-86 Mode saves first. -/
def State.savedData (s : State) : List Word32 :=
  if s.vm then [zext32 s.segs.gs.sel, zext32 s.segs.fs.sel, zext32 s.segs.ds.sel, zext32 s.segs.es.sel] else []

/-- They are null in the handler. -/
def State.dataNulled (s t : State) : State := { t with segs := if s.vm then nullData t.segs else t.segs }

theorem pushV86Data_eq (z : OpSize) (s : State) : onlyIf s.vm (pushV86Data z s.segs)
    = (do pushAll z s.savedData; modify fun t => s.dataNulled t : Exec Unit) := by
  funext t
  unfold State.savedData State.dataNulled
  cases s.vm with
  | false => rfl
  | true =>
    simp only [exec_onlyIf_true, if_true, pushV86Data, pushAll, bind_assoc, pure_bind]

theorem enterInner_ok {z : OpSize} {l : BitVec 2} {ext : Word32} {s : State} {sel : Word16} {esp : Word32} {q : SegCache}
    (hstack : innerStack l ext s = .ok ((sel, esp), s)) (hsegment : innerStackSegment sel l ext s = .ok (q, s))
    (hpe : s.pe = true) (hacc : bit q.attr 0 = true) :
    enterInner z l ext s = (do
      pushAll z s.savedData
      modify fun t => s.dataNulled t
      pushAll z [zext32 s.segs.ss.sel, s.gpr.esp] : Exec Unit) (s.onInnerStack l sel q esp) := by
  have hv86 : s.v86 = s.vm := by rw [State.v86, hpe, Bool.true_and]
  unfold enterInner
  rw [exec_bind_of_ok (exec_get s), exec_bind_of_ok hstack]
  dsimp only
  rw [exec_bind_of_ok hsegment, exec_bind_of_ok (exec_modify _ s), exec_bind_of_ok (loadSeg_of_accessed hacc ..),
    exec_bind_of_ok (exec_modify _ _), hv86, pushV86Data_eq]
  simp only [bind_assoc, pushAll, bind_pure_unit]
  rfl

end Sys2Proof.Machine
end

section
/-! PROOFS. A gate's frame on the current and on the inner stack, and delivery through a task gate (60_exceptions.md R348, R354, R356, R359, R360). -/

namespace Sys2Proof.Machine

/-- The stack on which a gate's frame is built, with stack segment `q`. -/
def Gate.frame (g : Gate) (q : SegCache) (esp : Word32) : Frame where
  width := if bit g.access 3 then 4 else 2
  base := q.base
  big := bit q.attr 10
  esp := esp

/-- A frame with its ESP, on the stack of `s`. -/
def State.withFrame (s : State) (esp : Word32) (mem : Memory) : State := { s with gpr := { s.gpr with esp := esp }, mem := mem }

theorem cpl_of_prot {s : State} (h : s.prot = true) : s.cpl = s.cplField := by
  obtain ⟨hpe, hvm⟩ := prot_iff.mp h
  rw [State.cpl, hpe, hvm]
  rfl

theorem length_slots_le (ev : Event) (s : State) : (ev.slots s).length ≤ 4 := by
  unfold Event.slots
  cases ev.code with
  | none => exact Nat.le_succ 3
  | some c => exact Nat.le_refl 4

theorem length_savedData_le (s : State) : s.savedData.length ≤ 4 := by
  unfold State.savedData
  split
  · exact Nat.le_refl 4
  · exact Nat.zero_le 4

section
variable {ev : Event} {g : Gate} {d : SegCache} {s : State} (hcode : handlerCode g.sel ev.ext s = .ok (d, s))
  (hpe : s.pe = true) (hwf : Memory.wf s.mem = true) (hacc : bit d.attr 0 = true)
include hcode hpe hwf hacc

/-- A handler of the same level: the frame on the current stack (R356). -/
theorem deliverGate_same (hsame : s.entersInner d = false) (hroom : (g.frame s.segs.ss.cache s.gpr.esp).Room (ev.slots s).length s) :
    ∃ t, deliverGate ev g s
        = .ok ((), (s.withFrame ((g.frame s.segs.ss.cache s.gpr.esp).espAfter (ev.slots s).length) t.mem).inHandler ev g d)
      ∧ (g.frame s.segs.ss.cache s.gpr.esp).Built s (ev.slots s) t := by
  have hlen := length_slots_le ev s
  obtain ⟨t, hpush, hbuilt, ht⟩ := pushAll_ok (slotBytes_gate g) (by omega) (ev.slots s) hroom (Frame.built_nil rfl rfl hwf)
    (by rw [List.length_nil, Nat.zero_add])
  rw [List.length_nil, Nat.zero_add] at ht
  have hpet : t.pe = true := by rw [ht]; exact hpe
  have hinner : onlyIf (s.entersInner d) (enterInner g.size d.dpl ev.ext) s = .ok ((), s) := by rw [hsame]; rfl
  refine ⟨t, ?_, hbuilt⟩
  rw [deliverGate_ok hcode hinner hpush hpet hacc]
  exact congrArg (fun u : State => Except.ok ((), u.inHandler ev g d)) ht

variable {sel : Word16} {q : SegCache} {esp : Word32}

/-- A handler of an inner level, and from Virtual-86 Mode: the frame on the inner stack, the outer one saved in it (R354, R359). -/
theorem deliverGate_inner (henters : s.entersInner d = true) (hstack : innerStack d.dpl ev.ext s = .ok ((sel, esp), s))
    (hsegment : innerStackSegment sel d.dpl ev.ext s = .ok (q, s)) (haccq : bit q.attr 0 = true)
    (hroom : (g.frame q esp).Room (s.savedData ++ [zext32 s.segs.ss.sel, s.gpr.esp] ++ ev.slots s).length
      (s.onInnerStack d.dpl sel q esp)) :
    ∃ t, deliverGate ev g s = .ok ((), ((s.dataNulled (s.onInnerStack d.dpl sel q esp)).withFrame
        ((g.frame q esp).espAfter (s.savedData ++ [zext32 s.segs.ss.sel, s.gpr.esp] ++ ev.slots s).length) t.mem).inHandler ev g d)
      ∧ (g.frame q esp).Built s (s.savedData ++ [zext32 s.segs.ss.sel, s.gpr.esp] ++ ev.slots s) t := by
  have hdata := length_savedData_le s
  have hslots := length_slots_le ev s
  have hn : (s.savedData ++ [zext32 s.segs.ss.sel, s.gpr.esp] ++ ev.slots s).length = s.savedData.length + 2 + (ev.slots s).length := by
    rw [List.length_append, List.length_append]
    rfl
  have hbegin := enterInner_ok (z := g.size) hstack hsegment hpe haccq
  generalize hu : s.onInnerStack d.dpl sel q esp = u at hroom hbegin
  have hmem : u.mem = s.mem := by rw [← hu]; rfl
  have hesp : u.gpr.esp = esp := by rw [← hu]; rfl
  have hss {v : State} : (s.dataNulled v).segs.ss = v.segs.ss := by unfold State.dataNulled; split <;> rfl
  obtain ⟨v, hpush₁, hbuilt₁, hv⟩ := pushAll_ok (slotBytes_gate g) (by omega) s.savedData hroom (Frame.built_nil hesp hmem hwf)
    (by rw [hn, List.length_nil]; omega)
  have hroom₁ : (g.frame q esp).Room _ (s.dataNulled v) :=
    hroom.of_eq (by rw [hv]; rfl) (by rw [hv]; rfl) (by rw [hss, hv]) (by rw [hv]; rfl)
  have hbuilt₁ : (g.frame q esp).Built s s.savedData (s.dataNulled v) := hbuilt₁.of_eq rfl rfl
  obtain ⟨w, hpush₂, hbuilt₂, hw⟩ := pushAll_ok (slotBytes_gate g) (by omega) [zext32 s.segs.ss.sel, s.gpr.esp] hroom₁ hbuilt₁
    (by rw [hn, List.length_cons, List.length_singleton]; omega)
  have hroom₂ : (g.frame q esp).Room _ w :=
    hroom₁.of_eq (by rw [hw]; rfl) (by rw [hw]; rfl) (by rw [hw]) (by rw [hw])
  obtain ⟨t, hpush₃, hbuilt₃, ht⟩ := pushAll_ok (slotBytes_gate g) (by omega) (ev.slots s) hroom₂ hbuilt₂
    (by rw [hn, List.length_append]; exact Nat.le_refl _)
  have hinner : onlyIf (s.entersInner d) (enterInner g.size d.dpl ev.ext) s = .ok ((), w) := by
    rw [henters, exec_onlyIf_true, hbegin, exec_bind_of_ok hpush₁, exec_bind_of_ok (exec_modify _ v), hpush₂]
  have heq : t = (s.dataNulled u).withFrame
      ((g.frame q esp).espAfter (s.savedData ++ [zext32 s.segs.ss.sel, s.gpr.esp] ++ ev.slots s).length) t.mem := by
    rw [← List.length_append] at ht
    rw [ht, hw, hv]
    rfl
  have hpet : t.pe = true := by rw [heq, ← hu]; exact hpe
  refine ⟨t, ?_, hbuilt₃⟩
  rw [deliverGate_ok hcode hinner hpush₃ hpet hacc]
  exact congrArg (fun u : State => Except.ok ((), u.inHandler ev g d)) heq

end

theorem prot_onInnerStack {s : State} (hpe : s.pe = true) (l : BitVec 2) (sel : Word16) (q : SegCache) (esp : Word32) :
    (s.onInnerStack l sel q esp).prot = true :=
  prot_iff.mpr ⟨hpe, bit_setBit s.eflags 17 17 false⟩

/-- There is room on the inner stack where its segment is writable and its limit allows it. -/
theorem room_onInnerStack {g : Gate} {l : BitVec 2} {sel : Word16} {q : SegCache} {esp : Word32} {n : Nat} {s : State} (hpe : s.pe = true)
    (hflat : s.paging = false) (hfits : StackFits q sel l) (hpresent : bit q.attr 7 = true)
    (hlimit : ∀ k, k < n → q.inLimit ((g.frame q esp).offset k) (g.frame q esp).width = true)
    (hram : s.ram ((g.frame q esp).places n) = true) : (g.frame q esp).Room n (s.onInnerStack l sel q esp) := by
  obtain ⟨hseg, hdata, hwrite, -, -⟩ := hfits
  have hprot := prot_onInnerStack hpe l sel q esp
  have hwritable : q.writable = true := by
    rw [SegCache.writable, SegCache.isData, SegCache.codeOrData, hseg, hdata, hwrite]
    rfl
  have hp : q.present = true := hpresent
  refine ⟨hflat, hprot, rfl, rfl, fun k hk => ?_, hram⟩
  rw [segAllows_of_prot hprot]
  show q.allows true _ _ = true
  rw [SegCache.allows, hp, if_pos rfl, hwritable, hlimit k hk]
  rfl

/-! ### A task gate (R348, R360; log 41) -/

section
variable {ev : Event} {g : Gate} {d : SegCache} {s u : State}

theorem deliverTask_error {e : Stop} (h : findTss g.sel false (.gp (selCode g.sel + ev.ext)) ev.ext s = .error e) :
    deliverTask ev g s = .error e := by
  unfold deliverTask
  rw [exec_bind_of_ok (exec_get s), exec_bind_of_error h]

theorem deliverTask_ok {t : State} (h : findTss g.sel false (.gp (selCode g.sel + ev.ext)) ev.ext s = .ok (d, u))
    (hswitch : taskSwitch g.sel d .event ev.eip (ev.image s) ev.ext u = .ok ((), t)) :
    deliverTask ev g s = .ok ((), t.enterHandler ev) := by
  unfold deliverTask
  rw [exec_bind_of_ok (exec_get s), exec_bind_of_ok h, exec_bind_of_ok hswitch, exec_modify]

theorem findTss_notPresent {sel : Word16} {busy : Bool} {bad : Exn} {ext : Word32} (hti : bit sel 2 = false) (hnull : field sel 2 14 ≠ 0)
    (hread : readDescriptor sel bad s = .ok (d, u)) (h : d.isTss busy = true) (habsent : bit d.attr 7 = false) :
    findTss sel busy bad ext s = .error (.exc (.np (selCode sel + ext))) := by
  have hp : d.present = false := habsent
  rw [findTss_read hti hnull hread, h, hp, Bool.not_true, exec_bind_of_ok (exec_raiseIf_false _ u)]
  exact exec_bind_of_error (exec_raiseIf_true _ u)

end

theorem staysCanonical_taskClosed : TaskClosed StaysCanonical where
  toMmuClosed := staysCanonical_operandClosed.toMmuClosed
  esp _ _ := id
  segs _ _ := id
  level _ _ := id
  jump _ _ _ := id
  jumpReal _ _ := id
  guard _ := id
  ldtr _ _ := id
  cpl _ _ := id
  task _ _ _ _ _ := id
  setEip _ := id

theorem pushFrame_pushed {z : OpSize} {v : Word32} {t : State} (hflat : t.paging = false)
    (hallow : t.segAllows .ss true (t.pushOffset z) (slotBytes z) = true)
    (hdev : t.deviceAt (addrsFrom (t.linear .ss (t.pushOffset z)) (slotBytes z)) = false) :
    pushFrame z v t = .ok ((), t.pushed t z v (addrsFrom (t.linear .ss (t.pushOffset z)) (slotBytes z))) := by
  rw [pushFrame_flat hflat hallow hdev, toBytes_slotBytes, setStackTop_eq]
  have hsize (pas : List Word32) (vs : List Byte) : (t.storeBytes pas vs).stackSize = t.stackSize := by rw [storeBytes_eq]; rfl
  rw [hsize, storeBytes_gpr, State.pushOffset, esp_stackWrap]
  rfl

/-- The error code that is left over stands on the new task's stack, and no other byte changes. -/
theorem pushed_code {x : Word32} {pas : List Word32} {t : State} (hwf : Memory.wf t.mem = true) (hram : t.ram pas = true)
    (hnodup : pas.Nodup) (hlen : pas.length = 4) : (t.pushed t .s32 x pas).bytesAt pas = bytes32 x
      ∧ ∀ a, a ∉ pas → (t.pushed t .s32 x pas).physByte a = t.physByte a :=
  ⟨bytesAt_storeBytes hlen hnodup hram hwf, fun _ ha => physByte_storeBytes_other _ ha hwf⟩

theorem pushed_eq (t : State) (x : Word32) (pas : List Word32) : t.pushed t .s32 x pas = { t with
    gpr := { t.gpr with esp := if t.stackSize = .s32 then t.gpr.esp - 4 else withLow16 t.gpr.esp (low16 t.gpr.esp - 4) }
    mem := (t.pushed t .s32 x pas).mem } := by
  have hesp := esp_sub_slotBytes t.stackSize .s32 t.gpr.esp
  rw [State.pushed, hesp, storeBytes_eq]
  cases t.stackSize <;> rfl

theorem pushOffset_eq (t : State) :
    t.pushOffset .s32 = if t.stackSize = .s32 then t.gpr.esp - 4 else zext32 (low16 (t.gpr.esp - 4)) := by
  unfold State.pushOffset State.stackWrap
  cases t.stackSize <;> rfl

end Sys2Proof.Machine
end

section
/-! PROOFS. Delivery in Protected Mode with the gate ready (60_exceptions.md R354, R356, R357, R359 to R361). -/

namespace Sys2Proof.Machine

/-! ### What a gate answers is what the delivery answers -/

section
variable {ev : Event} {g : Gate} {s : State} (hdeliver : deliver ev s = enterGate ev g s)
  (hdpl : ev.software = true → s.cpl ≤ field g.access 5 2) (hpresent : bit g.access 7 = true)
include hdeliver hdpl hpresent

theorem deliver_gate_error (htype : g.access &&& 0x1F ∈ [(6 : Byte), 7, 0xE, 0xF]) {e : Stop} (h : deliverGate ev g s = .error e) :
    deliver ev s = .error e := by
  rw [hdeliver, enterGate_code hdpl hpresent htype]
  exact exec_bind_of_error h

theorem takeEvent_gate (htype : g.access &&& 0x1F ∈ [(6 : Byte), 7, 0xE, 0xF]) {t : State} (h : deliverGate ev g s = .ok ((), t)) :
    takeEvent ev s = .next t := by
  refine takeEvent_of_done (attempt_of_none ?_)
  rw [hdeliver, enterGate_code hdpl hpresent htype]
  exact exec_bind_of_ok h

theorem deliver_task_error (htype : g.access &&& 0x1F = 5) {e : Stop} (h : deliverTask ev g s = .error e) :
    deliver ev s = .error e := by
  rw [hdeliver, enterGate_task hdpl hpresent htype]
  exact exec_bind_of_error h

/-- The error code is left over. -/
theorem deliver_task_ok (htype : g.access &&& 0x1F = 5) {t : State} (h : deliverTask ev g s = .ok ((), t)) :
    deliver ev s = .ok (ev.code, t) := by
  rw [hdeliver, enterGate_task hdpl hpresent htype]
  exact exec_bind_of_ok h

end

/-- The handler entered from `u`, whose flags are those of `s` apart from VM. -/
theorem inHandler_eq {s u : State} (ev : Event) (g : Gate) (d : SegCache) {l : BitVec 2} (hcpl : u.cpl = l) (hdr7 : u.dr7 = s.dr7)
    (hflags : entryFlags u.eflags g.clearsIf = entryFlags s.eflags g.clearsIf) : u.inHandler ev g d = { u with
      eip := if bit d.attr 10 then g.offset else zext32 (low16 g.offset)
      eflags := s.eflags &&& ~~~ (if bit g.access 0 then 0x00034100 else 0x00034300)
      segs := { u.segs with cs := { sel := field g.sel 2 14 ++ l, cache := d } }
      dr7 := if ev.vector = 1 then setBit s.dr7 13 false else s.dr7 } := by
  rw [State.inHandler, hflags, entryFlags_gate, hcpl, hdr7]

/-- The handler of an inner level: the flags, CS and GD as at the same level, and the stack of its own, the level and the data segment
registers besides (R354, R359). -/
theorem inHandler_onInnerStack {s : State} (hpe : s.pe = true) (ev : Event) (g : Gate) (d : SegCache) (l : BitVec 2) (sel : Word16)
    (q : SegCache) (esp top : Word32) (mem : Memory) :
    ((s.dataNulled (s.onInnerStack l sel q esp)).withFrame top mem).inHandler ev g d = { s with
      gpr := { s.gpr with esp := top }
      eip := if bit d.attr 10 then g.offset else zext32 (low16 g.offset)
      eflags := s.eflags &&& ~~~ (if bit g.access 0 then 0x00034100 else 0x00034300)
      segs := { (if s.vm then nullData s.segs else s.segs) with
        ss := { sel := sel, cache := q }, cs := { sel := field g.sel 2 14 ++ l, cache := d } }
      dr7 := if ev.vector = 1 then setBit s.dr7 13 false else s.dr7
      cplField := l
      mem := mem } := by
  have hcpl : ((s.dataNulled (s.onInnerStack l sel q esp)).withFrame top mem).cpl = l := cpl_of_prot (prot_onInnerStack hpe l sel q esp)
  rw [inHandler_eq (s := s) ev g d hcpl rfl (entryFlags_outOfV86 g s.eflags)]
  unfold State.dataNulled
  cases s.vm <;> rfl

/-- A task switch leaves NT set, paging off and memory canonical. -/
theorem taskSwitch_nested {sel : Word16} {d : SegCache} {eip eflags ext : Word32} {u t : State} (hpe : u.pe = true)
    (hflat : u.paging = false) (hwf : Memory.wf u.mem = true) (h : taskSwitch sel d .event eip eflags ext u = .ok ((), t)) :
    t.nt = true ∧ t.paging = false ∧ Memory.wf t.mem = true := by
  obtain ⟨⟨-, hcr0, -, hnt, -⟩, -⟩ := taskSwitchRegisters sel d .event eip eflags ext u t hpe h
  have hbit {k : Nat} (hk : bit (8 : Word32) k = false) : bit t.cr0 k = bit u.cr0 k := by
    have hcr0 : t.cr0 = u.cr0 ||| 8 := hcr0
    rw [hcr0, bit_or, hk, Bool.or_false]
  have hpaging : t.paging = u.paging := congrArg₂ (· && ·) (hbit (k := 31) rfl) (hbit (k := 0) rfl)
  exact ⟨hnt (.inr rfl), hpaging.trans hflat, keepsIf_taskSwitch staysCanonical_taskClosed _ _ _ _ _ _ u () t hpe h hwf⟩

/-- The error code that a task gate leaves over is pushed on the new task's stack, 32 bits (R360). -/
theorem takeEvent_code {ev : Event} {s t : State} {x : Word32} (hdeliver : deliver ev s = .ok (some x, t)) (hflat : t.paging = false)
    (hwf : Memory.wf t.mem = true) {off : Word32} (hoff : t.pushOffset .s32 = off) (hallow : t.segAllows .ss true off 4 = true)
    (hram : t.ram (addrsFrom (t.linear .ss off) 4) = true) : ∃ v, takeEvent ev s = .next v
      ∧ v = { t with
          gpr := { t.gpr with esp := if t.stackSize = .s32 then t.gpr.esp - 4 else withLow16 t.gpr.esp (low16 t.gpr.esp - 4) }
          mem := v.mem }
      ∧ v.bytesAt (addrsFrom (t.linear .ss off) 4) = bytes32 x
      ∧ ∀ a, a ∉ addrsFrom (t.linear .ss off) 4 → v.physByte a = t.physByte a := by
  subst hoff
  have hpush := pushFrame_pushed (z := .s32) (v := x) hflat hallow (deviceAt_of_ram hram)
  exact ⟨_, takeEvent_of_done (attempt_of_some hdeliver hpush), pushed_eq t x _,
    pushed_code hwf hram (nodup_addrsFrom _ (by decide)) (addrsFrom_length ..)⟩

/-- The descriptor that a task gate may name, in the order of the types in the statement. -/
theorem isTss_available_or_iff {d : SegCache} :
    d.isTss false = true ↔ bit d.attr 4 = false ∧ (field d.attr 0 4 = 9 ∨ field d.attr 0 4 = 1) :=
  isTss_available_iff.trans (and_congr_right' or_comm)

/-- A handler of an inner level may be entered: from Virtual-86 Mode its level is 0. -/
theorem handlerFits_of_inner {s : State} {d : SegCache} (hcode : bit d.attr 4 = true ∧ bit d.attr 3 = true)
    (h : (s.vm = true ∧ field d.attr 5 2 = 0) ∨ (s.vm = false ∧ bit d.attr 2 = false ∧ field d.attr 5 2 < s.cpl)) :
    HandlerFits s d := by
  obtain ⟨hseg, htype⟩ := hcode
  refine ⟨hseg, htype, fun hvm => ?_⟩
  obtain ⟨-, hlevel⟩ | ⟨hno, -⟩ := h
  · exact hlevel
  · exact absurd (hno.symm.trans hvm) Bool.false_ne_true

/-- Settles O60: the gate is read (`deliver_protected`), its handler's code segment checked (`handlerCode_*`), the stack changed
(`enterInner_ok`) and the frame built on it (`deliverGate_same`, `deliverGate_inner`); a task gate switches (`deliverTask_ok`). -/
theorem protectedEntrySameLevel : Obligations.ProtectedEntrySameLevel := by
  intro ev s hpe hflat hwf hlimit gateAddr g codeAddr d guarded ext code w slotAt below places stored entered hdev hpresent hdpl
  have hdeliver : deliver ev s = enterGate ev g s := deliver_protected hpe hflat hlimit hdev
  refine ⟨fun htype => ?handler, fun htype hcodeDev hnull hti hin hseg hcode hp hacc => ?gates, fun htype => ?taskGate⟩
  case handler =>
    have codeError {e : Stop} (h : handlerCode g.sel ev.ext s = .error e) : deliver ev s = .error e :=
      deliver_gate_error hdeliver hdpl hpresent htype (deliverGate_code_error h)
    exact ⟨fun h => codeError (handlerCode_bad h), fun b u hnull hread =>
      ⟨fun h => codeError (handlerCode_unfit hnull hread hpe h),
        fun h habsent => codeError (handlerCode_absent hnull hread hpe h habsent)⟩⟩
  case gates =>
    have hread := readDescriptor_gdt hflat hti hin hcodeDev (.gp (selCode g.sel + ev.ext))
    refine ⟨fun hvm hlevel => ?same, fun hlevel => ?inner⟩
    case same =>
      intro slots n base big hallow hram
      have hhandler : handlerCode g.sel ev.ext s = .ok (d, s) :=
        handlerCode_ok hnull hread hpe ⟨hseg, hcode, fun h => absurd (hvm.symm.trans h) Bool.false_ne_true⟩ hp
      have hroom : (g.frame s.segs.ss.cache s.gpr.esp).Room n s := ⟨hflat, prot_iff.mpr ⟨hpe, hvm⟩, rfl, rfl, hallow, hram⟩
      obtain ⟨t, hdone, hbuilt⟩ := deliverGate_same hhandler hpe hwf hacc (entersInner_same hpe ⟨hseg, hcode⟩ hvm hlevel) hroom
      exact ⟨_, takeEvent_gate hdeliver hdpl hpresent htype hdone, inHandler_eq (s := s) ev g d rfl rfl rfl,
        hbuilt.stored, hbuilt.bytes⟩
    case inner =>
      intro l small link esp sel stackAddr q big slots n reach
      have henters := entersInner_inner hpe ⟨hseg, hcode⟩ hlevel
      have hhandler : handlerCode g.sel ev.ext s = .ok (d, s) :=
        handlerCode_ok hnull hread hpe (handlerFits_of_inner ⟨hseg, hcode⟩ hlevel) hp
      have innerError {e : Stop} (h : enterInner g.size l ev.ext s = .error e) : deliver ev s = .error e :=
        deliver_gate_error hdeliver hdpl hpresent htype (deliverGate_inner_error hhandler henters h)
      refine ⟨fun hshort => innerError (enterInner_stack_error (innerStack_short l ev.ext hshort)), fun hreach hlink => ?segment,
        fun hreach hdevs hselNull hselTi hselIn hrpl hlevelq hsegq hdata hwrite hpq haccq hinside hram => ?entered⟩
      case segment =>
        have segmentError {e : Stop} (h : innerStackSegment sel l ev.ext s = .error e) : deliver ev s = .error e :=
          innerError (enterInner_segment_error (innerStack_ok l ev.ext hflat hreach hlink) h)
        refine ⟨fun h => segmentError (innerStackSegment_bad h),
          fun b u hselNull hselRead => ⟨fun h => ?unfit, fun h habsent => ?absent⟩⟩
        case unfit =>
          refine segmentError (innerStackSegment_unfit hselNull hselRead ?_)
          exact fun ⟨hsegq, hdata, hwrite, hlevelq, hrpl⟩ => h ⟨hrpl, hlevelq, hsegq, hdata, hwrite⟩
        case absent =>
          obtain ⟨hrpl, hlevelq, hsegq, hdata, hwrite⟩ := h
          exact segmentError (innerStackSegment_absent hselNull hselRead ⟨hsegq, hdata, hwrite, hlevelq, hrpl⟩ habsent)
      case entered =>
        obtain ⟨hlink, hstackDev⟩ := deviceAt_append_eq_false_iff.mp hdevs
        have hfits : StackFits q sel l := ⟨hsegq, hdata, hwrite, hlevelq, hrpl⟩
        have hreadq := readDescriptor_gdt hflat hselTi hselIn hstackDev (.gp (selCode sel + ev.ext))
        have hroom := room_onInnerStack (g := g) (esp := esp) hpe hflat hfits hpq hinside hram
        obtain ⟨t, hdone, hbuilt⟩ := deliverGate_inner hhandler hpe hwf hacc henters (innerStack_ok l ev.ext hflat hreach hlink)
          (innerStackSegment_ok hselNull hreadq hfits hpq) haccq hroom
        exact ⟨_, takeEvent_gate hdeliver hdpl hpresent htype hdone, inHandler_onInnerStack hpe ev g d l sel q esp _ _,
          hbuilt.stored, hbuilt.bytes⟩
  case taskGate =>
    have tssError {e : Stop} (h : findTss g.sel false (.gp (selCode g.sel + ev.ext)) ev.ext s = .error e) :
        deliver ev s = .error e :=
      deliver_task_error hdeliver hdpl hpresent htype (deliverTask_error h)
    refine ⟨fun h => tssError (findTss_bad _ _ _ h), fun b u hti hnull hread => ⟨fun h => ?wrongType, fun h habsent => ?absent,
      fun h hp t hswitch => ?switched⟩⟩
    case wrongType => exact tssError (findTss_wrongType hti hnull hread (mt isTss_available_or_iff.mp h))
    case absent => exact tssError (findTss_notPresent hti hnull hread (isTss_available_or_iff.mpr h) habsent)
    case switched =>
      have hu : u = s := readDescriptor_flat_ok hflat hread
      obtain ⟨hnt, hpaging, hmem⟩ := taskSwitch_nested (hu ▸ hpe) (hu ▸ hflat) (hu ▸ hwf) hswitch
      have htss := findTss_ok (ext := ev.ext) hti hnull hread (isTss_available_or_iff.mpr h) hp
      have hdone := deliver_task_ok hdeliver hdpl hpresent htype (deliverTask_ok htss hswitch)
      rw [enterHandler_eq] at hdone
      refine ⟨hnt, fun hc => takeEvent_of_done (attempt_of_none (hc ▸ hdone)), fun x hc => ?_⟩
      intro wide off pas hallow hram
      rw [hc] at hdone
      exact takeEvent_code hdone hpaging hmem (pushOffset_eq t) hallow hram

end Sys2Proof.Machine
end

section
/-! PROOFS. The canonical form of memory (20_memory.md R130, R143; log 2): a step writes memory by stores of bytes only. -/

namespace Sys2Proof.Machine

/-- Memory in canonical form stays so. -/
def CanonicalKept (s t : State) : Prop := Memory.wf s.mem = true → Memory.wf t.mem = true

theorem canonicalKept_of_eq {s t : State} (h : t.mem = s.mem) : CanonicalKept s t := by
  rw [CanonicalKept, h]
  exact id

/-- Of the updates a step makes only the store of bytes writes memory. -/
theorem canonicalKept_stepClosed : StepClosed CanonicalKept where
  frame := ⟨fun _ => id, fun _ _ _ h1 h2 => h2 ∘ h1⟩
  store _ pas vs := storeBytes_wf pas vs
  tlb _ _ _ := canonicalKept_of_eq rfl
  draws _ _ := canonicalKept_of_eq rfl
  pending _ _ := canonicalKept_of_eq rfl
  esp _ _ := canonicalKept_of_eq rfl
  segs _ _ := canonicalKept_of_eq rfl
  level _ _ := canonicalKept_of_eq rfl
  jump _ _ _ := canonicalKept_of_eq rfl
  jumpReal _ _ := canonicalKept_of_eq rfl
  guard _ := canonicalKept_of_eq rfl
  ldtr _ _ := canonicalKept_of_eq rfl
  cpl _ _ := canonicalKept_of_eq rfl
  task _ _ _ _ _ := canonicalKept_of_eq rfl
  setEip _ := canonicalKept_of_eq rfl
  raised _ _ := canonicalKept_of_eq (raised_mem ..)
  down _ := canonicalKept_of_eq rfl
  iret _ _ _ _ _ h := h
  iretVirtual _ _ _ _ h := h
  unblock _ := canonicalKept_of_eq rfl
  gprs _ _ := canonicalKept_of_eq rfl
  gdtr _ _ := canonicalKept_of_eq rfl
  idtr _ _ := canonicalKept_of_eq rfl
  tr _ _ := canonicalKept_of_eq rfl
  cr2 _ _ := canonicalKept_of_eq rfl
  cr3 _ _ := canonicalKept_of_eq rfl
  cr4 _ _ _ := canonicalKept_of_eq rfl
  tr6 _ _ := canonicalKept_of_eq rfl
  tr7 _ _ := canonicalKept_of_eq rfl
  tr6Found _ _ := canonicalKept_of_eq rfl
  tr7Found _ _ _ _ := canonicalKept_of_eq rfl
  msr _ _ := canonicalKept_of_eq rfl
  env _ _ := canonicalKept_of_eq rfl
  activity _ _ := canonicalKept_of_eq rfl
  nmiBlocked _ _ := canonicalKept_of_eq rfl
  goOn _ _ := canonicalKept_of_eq rfl
  report _ := canonicalKept_of_eq rfl

theorem setCr0_mem (s : State) (v : Word32) : (s.setCr0 v).mem = s.mem := by rw [setCr0_eq]

theorem writeDr_mem (s : State) (n : BitVec 3) (v : Word32) : (s.writeDr n v).mem = s.mem := by
  unfold State.writeDr
  dsimp only
  split_ifs <;> rfl

theorem canonicalKept_writes (i : Instr) : WritesKept CanonicalKept i := by
  cases i with
  | clts p => exact fun s => canonicalKept_of_eq rfl
  | lmsw p o => exact fun s w => canonicalKept_of_eq (setCr0_mem s _)
  | movToCr p mod n r => exact fun _ s v _ _ => canonicalKept_of_eq (setCr0_mem s _)
  | movToDr p mod n r => exact fun s v => canonicalKept_of_eq (writeDr_mem s n v)
  | _ => trivial

/-- A reset keeps memory as it is (70 R390; log 36). -/
theorem canonicalKept_afterReset (s : State) : CanonicalKept s s.afterReset := canonicalKept_of_eq rfl

/-- Settles O12: a reset keeps memory, and every other update of a step leaves it alone or stores bytes, which keeps its form
(`storeBytes_wf`). -/
theorem stepKeepsCanonicalMemory : Obligations.StepKeepsCanonicalMemory := by
  intro s t hmem hstep
  exact keepsFrom_step canonicalKept_stepClosed.toCycleClosed (fun _ => canonicalKept_afterReset s)
    (fun _ i u _ => keepsFrom_exec canonicalKept_stepClosed (canonicalKept_writes i) u) t hstep hmem

end Sys2Proof.Machine
end
